-- ==== Sys2Proof/Word.lean ====
section
/-! DEFINITION. The word types of the block (00_scope.md R9): command, data and character bytes and coordinates are 8 bits, the
request word is 32 bits. Every value is unsigned. -/

namespace Sys2Proof

/-- An 8-bit value: command byte, data byte, read byte, character code or coordinate (R9). -/
abbrev Byte := BitVec 8

/-- The 32-bit request word (R9, R90). -/
abbrev Word := BitVec 32

end Sys2Proof
end

