-- ==== Sys2Proof/Syntax.lean ====
section
/-! DEFINITION. The ten requests of the block (30_encoding.md R93), one constructor per row of the opcode table, with the operands each
takes from the request word (R92), and the one pseudo-request (R104). -/

namespace Sys2Proof

/-- A host request, the block's "instruction" (R3, R93). -/
inductive Instr where
  /-- `WCMD b`: write one command byte (R122). -/
  | wcmd (byte : Byte)
  /-- `WDATA b`: write one data byte (R123). -/
  | wdata (byte : Byte)
  /-- `RDATA`: read one data byte (R125). -/
  | rdata
  /-- `GOTO_PIXEL x, y` (R142). -/
  | gotoPixel (x y : Byte)
  /-- `GOTO_LINE l` (R143). -/
  | gotoLine (line : Byte)
  /-- `PUT_CHAR c` (R155). -/
  | putChar (code : Byte)
  /-- `BLIT`: the bitmap comes on the bitmap port (R170). -/
  | blit
  /-- `CLEAR_PIXEL x, y` (R171). -/
  | clearPixel (x y : Byte)
  /-- `CLEAR_SCREEN` (R173). -/
  | clearScreen
  /-- `INIT` (R190). -/
  | init
deriving DecidableEq, Repr

/-- The pseudo-request `PUT_STRING "s"`: "one `PUT_CHAR` per byte of s, in order, and nothing else" (R104). -/
def Instr.putString (s : List Byte) : List Instr := s.map .putChar

end Sys2Proof
end

