-- ==== Sys2Proof/Decode.lean ====
section
/-! DEFINITION. The request word (30_encoding.md R90 to R96): the fields of R91, the decoder of R96, total on every word and on every list
of bytes and rejecting by name, and after it the encoder of R103. -/

namespace Sys2Proof

/-- Why a request word is illegal (R95), or why bytes hold no request word. -/
inductive DecodeError where
  /-- RSV1, bits [31:24], is not zero. -/
  | rsv1NotZero
  /-- RSV0, bits [7:4], is not zero. -/
  | rsv0NotZero
  /-- OP is 0x0 or one of 0xB..0xF. -/
  | reservedOpcode
  /-- Fewer than the four bytes of a request word (R90: there are no other lengths). -/
  | truncated
deriving DecidableEq, Repr

/-- OP, bits [3:0] (R91). -/
def Word.op (w : Word) : BitVec 4 := w.extractLsb' 0 4

/-- RSV0, bits [7:4] (R91). -/
def Word.rsv0 (w : Word) : BitVec 4 := w.extractLsb' 4 4

/-- A, bits [15:8] (R91, R92). -/
def Word.operandA (w : Word) : Byte := w.extractLsb' 8 8

/-- B, bits [23:16] (R91, R92). -/
def Word.operandB (w : Word) : Byte := w.extractLsb' 16 8

/-- RSV1, bits [31:24] (R91). -/
def Word.rsv1 (w : Word) : Byte := w.extractLsb' 24 8

/-- The opcode map (R93), the `case` of R96, from OP and the two operand fields. -/
def decodeFields (op : BitVec 4) (a b : Byte) : Except DecodeError Instr :=
  if op = 0x1#4 then .ok (.wcmd a)
  else if op = 0x2#4 then .ok (.wdata a)
  else if op = 0x3#4 then .ok .rdata
  else if op = 0x4#4 then .ok (.gotoPixel a b)
  else if op = 0x5#4 then .ok (.gotoLine a)
  else if op = 0x6#4 then .ok (.putChar a)
  else if op = 0x7#4 then .ok .blit
  else if op = 0x8#4 then .ok (.clearPixel a b)
  else if op = 0x9#4 then .ok .clearScreen
  else if op = 0xA#4 then .ok .init
  else .error .reservedOpcode

/-- The decoder, total on every 32-bit word (R96). -/
def decode (w : Word) : Except DecodeError Instr :=
  if Word.rsv1 w ≠ 0#8 then .error .rsv1NotZero
  else if Word.rsv0 w ≠ 0#4 then .error .rsv0NotZero
  else decodeFields (Word.op w) (Word.operandA w) (Word.operandB w)

/-- The request word of four bytes, little-endian: byte 0 is bits [7:0] (20_memory.md R56). -/
def wordOfBytes (b0 b1 b2 b3 : Byte) : Word := b3 ++ b2 ++ b1 ++ b0

/-- The decoder on bytes: the request of the first four, and the bytes after them. -/
def decodeBytes : List Byte → Except DecodeError (Instr × List Byte)
  | b0 :: b1 :: b2 :: b3 :: rest =>
    match decode (wordOfBytes b0 b1 b2 b3) with
    | .ok i => .ok (i, rest)
    | .error e => .error e
  | _ => .error .truncated

/-- The four bytes of a request word, little-endian (20_memory.md R56). -/
def bytesOfWord (w : Word) : List Byte :=
  [w.extractLsb' 0 8, w.extractLsb' 8 8, w.extractLsb' 16 8, w.extractLsb' 24 8]

/-- The request word whose bits below `nbits` are `w`'s and whose bits above are 0. -/
def wordOfNumber (nbits w : Nat) : Word := BitVec.ofNat 32 (w % 2 ^ nbits)

/-- What the decoder reads from the word numbered `w` (spec/opcode_table.json's numbering), laid out as bytes. -/
def decodeTableWord (nbits w : Nat) : Option Instr :=
  match decodeBytes (bytesOfWord (wordOfNumber nbits w)) with
  | .ok (i, _) => some i
  | .error _ => none

/-- OP of a request (R93). -/
def Instr.op : Instr → BitVec 4
  | .wcmd _ => 0x1#4
  | .wdata _ => 0x2#4
  | .rdata => 0x3#4
  | .gotoPixel _ _ => 0x4#4
  | .gotoLine _ => 0x5#4
  | .putChar _ => 0x6#4
  | .blit => 0x7#4
  | .clearPixel _ _ => 0x8#4
  | .clearScreen => 0x9#4
  | .init => 0xA#4

/-- The operand field A of a request, 0 where the request does not use it (R92, R103). -/
def Instr.fieldA : Instr → Byte
  | .wcmd b => b
  | .wdata b => b
  | .rdata => 0#8
  | .gotoPixel x _ => x
  | .gotoLine l => l
  | .putChar c => c
  | .blit => 0#8
  | .clearPixel x _ => x
  | .clearScreen => 0#8
  | .init => 0#8

/-- The operand field B of a request, 0 where the request does not use it (R92, R103). -/
def Instr.fieldB : Instr → Byte
  | .gotoPixel _ y => y
  | .clearPixel _ y => y
  | .wcmd _ | .wdata _ | .rdata | .gotoLine _ | .putChar _ | .blit | .clearScreen | .init => 0#8

/-- The request word `w = (B << 16) | (A << 8) | OP`, reserved fields 0 (R91, R103). -/
def encode (i : Instr) : Word := 0#8 ++ i.fieldB ++ i.fieldA ++ 0#4 ++ i.op

/-- The bits of a request word that the decoder looks at for a request: OP, RSV0 and RSV1 (mask 0xFF0000FF), and the operand fields the
request uses (R92, R94). -/
def Instr.usedBits : Instr → Word
  | .wcmd _ | .wdata _ | .gotoLine _ | .putChar _ => 0xFF00FFFF#32
  | .gotoPixel _ _ | .clearPixel _ _ => 0xFFFFFFFF#32
  | .rdata | .blit | .clearScreen | .init => 0xFF0000FF#32

end Sys2Proof
end

