-- ==== Sys2Proof/Config.lean ====
section
/-! DEFINITION. What is fixed for one machine (00_scope.md R7, R8): the geometry, the named parameters as one record of plain data,
the values the spec gives none of (constants with no body), and the draws of R11 (a function with no body). -/

namespace Sys2Proof

/-- `CAP = 21`, the glyphs a text line holds (R7). -/
def Config.cap : Nat := 21

/-- The number of display bytes, `W * PAGES = 128 * 8` (R7, R50). -/
def Config.displayBytes : Nat := 1024

/-- `CTRL_WRAP_COL` (R8, R72): the column the reference controller's pointer goes to after column CEND. -/
inductive WrapCol where
  | zero
  | start
deriving DecidableEq, Repr

/-- One row of the `CTRL_ARGC` table (20_memory.md R76): every command byte from `lo` to `hi` takes `argc` argument bytes. -/
structure ArgcRow where
  lo   : Byte
  hi   : Byte
  argc : Fin 5
deriving DecidableEq, Repr

/-- The parameters of R8, "The model takes these named parameters as arguments". They stand in `State.cfg`, so a statement about every
state is a statement about every value of them; no request writes them (10_state.md R20, 20_memory.md R65). -/
structure Config where
  /-- `GLYPH`: 95 entries for codes 32..126, 5 bytes each, "addressable by `code - 32`" (R8, R50). -/
  glyph : Vector (Vector Byte 5) 95
  /-- `CMD_SET_COLUMN` (R8, R98). -/
  cmdSetColumn : Byte
  /-- `CMD_PAGE_START`, low 3 bits zero (R8, R99; the check is in WellFormed.lean). -/
  cmdPageStart : Byte
  /-- `CTRL_ACTIVE_LOW` (R8, R129). -/
  ctrlActiveLow : Bool
  /-- `INIT_SCRIPT` (R8, R193). -/
  initScript : List Byte
  /-- `T_RES_LOW`, in microseconds (R8, R192). -/
  tResLow : Nat
  /-- `T_RES_RECOVER`, in microseconds (R8, R192). -/
  tResRecover : Nat
  /-- `GOTO_LINE_SETS_CURSOR`, OPEN (R8, R144). -/
  gotoLineSetsCursor : Bool
  /-- `CTRL_WRAP_COL` (R8, R72). -/
  ctrlWrapCol : WrapCol
  /-- `CTRL_ARGC` as a table of ranges; a byte in no row has 0 arguments (R8, R76). -/
  ctrlArgc : List ArgcRow
  /-- The shortest `T_RES_LOW` the controller needs (70_reset_and_hazards.md R241: "at least what the controller needs"; log 23). -/
  resLowNeeded : Nat
  /-- The shortest `T_RES_RECOVER` the controller needs (R241, log 23). -/
  resRecoverNeeded : Nat
  /-- DESIGN CHOICE (log 6, safe): whether the environment on the pins is the reference controller ("when the model includes it", R212)
  or nothing the spec constrains (R128: "whether or not a controller is attached"). -/
  attached : Bool
deriving DecidableEq, Repr

/-- The values of `draw8()` (R11: "an unconstrained 8-bit value, a fresh one at each use"): the n-th draw of a run. No body, so no proof
can see a value (log 7, safe). -/
opaque Config.draw8 : Nat → Byte

/-- The glyph bytes of the external glyph resource (R5, R8): the spec gives none (log 5). -/
opaque Config.glyphResource : Vector (Vector Byte 5) 95

/-- The bytes of the initialization script (R6, R8): the spec gives none (log 5). -/
opaque Config.initBytes : List Byte

/-- The duration `T_RES_LOW` (R8): the spec gives none (log 5). -/
opaque Config.resetLowTime : Nat

/-- The duration `T_RES_RECOVER` (R8): the spec gives none (log 5). -/
opaque Config.resetRecoverTime : Nat

/-- What the controller needs of `T_RES_LOW` (70_reset_and_hazards.md R241): "The source gives no value" (log 23). -/
opaque Config.controllerResetLow : Nat

/-- What the controller needs of `T_RES_RECOVER` (R241, log 23). -/
opaque Config.controllerResetRecover : Nat

/-- The default `CTRL_ARGC` table, row by row as R76 lists it (PRESUMED by the spec from general knowledge). -/
def Config.defaultArgc : List ArgcRow :=
  [ ⟨0xAE#8, 0xAF#8, 0⟩,   -- display off, display on
    ⟨0xD5#8, 0xD5#8, 1⟩,   -- clock divider
    ⟨0xA8#8, 0xA8#8, 1⟩,   -- multiplex ratio
    ⟨0xD3#8, 0xD3#8, 1⟩,   -- display offset
    ⟨0x40#8, 0x7F#8, 0⟩,   -- start line
    ⟨0xC0#8, 0xC0#8, 0⟩,   -- COM scan direction
    ⟨0xC8#8, 0xC8#8, 0⟩,
    ⟨0xDA#8, 0xDA#8, 1⟩,   -- COM pins config
    ⟨0x81#8, 0x81#8, 1⟩ ] ++ -- contrast
  [ ⟨0xD9#8, 0xD9#8, 1⟩,   -- pre-charge period
    ⟨0xDB#8, 0xDB#8, 1⟩,   -- VCOMH deselect level
    ⟨0xA6#8, 0xA6#8, 0⟩,   -- normal display mode
    ⟨0x20#8, 0x20#8, 1⟩,   -- addressing mode (horizontal)
    ⟨0x21#8, 0x21#8, 2⟩,   -- column address range (CMD_SET_COLUMN)
    ⟨0x22#8, 0x22#8, 2⟩,   -- page address range
    ⟨0xB0#8, 0xB7#8, 0⟩ ]  -- page start

/-- The parameter values of `State.reset`: the ones R8 uses, and the constants above where R8 says "symbolic" (log 5, log 6). -/
def Config.standard : Config where
  glyph := Config.glyphResource
  cmdSetColumn := 0x21#8
  cmdPageStart := 0xB0#8
  ctrlActiveLow := true
  initScript := Config.initBytes
  tResLow := Config.resetLowTime
  tResRecover := Config.resetRecoverTime
  gotoLineSetsCursor := false
  ctrlWrapCol := .zero
  ctrlArgc := Config.defaultArgc
  resLowNeeded := Config.controllerResetLow
  resRecoverNeeded := Config.controllerResetRecover
  attached := true

/-- The two reset delays are "at least what the controller needs" (70_reset_and_hazards.md R241, log 23). -/
def Config.delaysSuffice (cfg : Config) : Bool := cfg.resLowNeeded ≤ cfg.tResLow && cfg.resRecoverNeeded ≤ cfg.tResRecover

/-- `CTRL_ARGC(b)` by the table's rows: the first row that holds `b`, and 0 for a byte in none (R76). -/
def Config.argcIn (b : Byte) : List ArgcRow → Nat
  | [] => 0
  | r :: rest => if r.lo ≤ b ∧ b ≤ r.hi then r.argc.val else Config.argcIn b rest

/-- `CTRL_ARGC(b)` (R8, R76). -/
def Config.argc (cfg : Config) (b : Byte) : Nat := Config.argcIn b cfg.ctrlArgc

end Sys2Proof
end

