-- ==== Sys2Proof/Machine/State.lean ====
section
/-! DEFINITION. The state of the machine as plain data: the block's architectural state (10_state.md R20 to R36), the reference
controller on its pins (20_memory.md R66), the parameters (00_scope.md R8), the host's side of the request port (10_state.md R33), and
the state after block reset (70_reset_and_hazards.md R230). -/

namespace Sys2Proof.Machine

/-- STATUS (10_state.md R24, 60_exceptions.md R202); the numbers are in Flags.lean. -/
inductive Status where
  | ok
  | outOfBounds
  | sizeMismatch
  | illegalRequest
deriving DecidableEq, Repr

/-- DDIR, the direction of the data group (R27). -/
inductive Dir where
  | output
  | input
deriving DecidableEq, Repr

/-- PINS, the controller-side port, in logical levels: `true` is asserted, and for DC `true` is data (R27). -/
structure Pins where
  cs   : Bool
  dc   : Bool
  wr   : Bool
  rd   : Bool
  res  : Bool
  dout : Byte
  ddir : Dir
  /-- The value the environment drives on the data group. Between read cycles the spec gives it none: the model keeps the last byte a read
  cycle put there, and reset's until the first read cycle after an INIT (DESIGN CHOICE, log 12, unsafe). -/
  din  : Byte
deriving DecidableEq, Repr

/-- The kind of a write cycle (40_bus_protocol.md R121). -/
inductive BusKind where
  | cmd
  | data
deriving DecidableEq, Repr

/-- The events of TRACE (10_state.md R32). -/
inductive Event where
  | cmd (b : Byte)
  | data (b : Byte)
  | read (v : Byte)
  | pinSetup
  | resAssert
  | resRelease
  | delay (t : Nat)
deriving DecidableEq, Repr

/-- One bus transaction or lifecycle event of a request under way, as PHASE counts them (R30). -/
inductive Txn where
  /-- `BusWrite(kind, b)` (R121). -/
  | write (k : BusKind) (b : Byte)
  /-- `BusRead()` (R124). -/
  | read
  /-- `BusWrite(DATA, v & mask)` with v the byte of the last `BusRead()` (43_graphics.md R171). -/
  | writeBack (mask : Byte)
  /-- `PinSetup()` (44_lifecycle.md R191). -/
  | pinSetup
  /-- The two edges and the two windows of `ResetPulse()` (44_lifecycle.md R192). -/
  | resAssert
  | resRelease
  | delay (t : Nat)
deriving DecidableEq, Repr

/-- The position of a request in progress (R30): "which request is executing; the index of the bus transaction within it; the pin step
within that transaction". -/
structure Progress where
  req   : Instr
  /-- The index of the transaction under way. -/
  index : Nat
  /-- The transaction under way and those after it, in order. -/
  todo  : List Txn
  /-- The pin step to be done next, 0 for W1 or RS1 (R120). -/
  pin   : Nat
  /-- The byte the environment presents on the data group. -/
  bus   : Byte
  /-- The byte the last read cycle sampled, `v` of R124 and R171. -/
  v     : Byte
deriving DecidableEq, Repr

/-- PHASE (R30). -/
inductive Phase where
  | idle
  | busy (p : Progress)
deriving DecidableEq, Repr

/-- PEND of the reference controller: a command still waiting for `need` more argument bytes, with those received in `args` (R66). -/
structure Pending where
  cmd  : Byte
  need : Nat
  args : List Byte
deriving DecidableEq, Repr

/-- Display memory: the bytes that differ from the value an unlisted address reads as (Ops.lean), by rising address. -/
abbrev Memory := List Host.Cell

/-- The reference controller's state (20_memory.md R66). -/
structure Controller where
  mem    : Memory
  cptr   : BitVec 7
  pptr   : BitVec 3
  cstart : BitVec 7
  cend   : BitVec 7
  pend   : Option Pending
deriving DecidableEq, Repr

/-- The environment on the pins: "unspecified" is a state the spec itself gives the reference controller, in which every byte read is a
draw (R74, R75). -/
inductive Ctrl where
  | unspecified
  | specified (c : Controller)
deriving DecidableEq, Repr

/-- A request as the host presents it: the word on the request port (30_encoding.md R91) and the frame on the bitmap input port, empty
where the host presents none (43_graphics.md R170). -/
structure HostRequest where
  word   : Word
  bitmap : List Byte
deriving DecidableEq, Repr

/-- The whole machine. -/
@[ext]
structure State where
  /-- COL (R21). -/
  col : BitVec 5
  /-- LINE (R22). -/
  line : BitVec 3
  /-- STATUS (R24). -/
  status : Status
  /-- RDOUT (R25). -/
  rdout : Byte
  /-- RDOUT holds a value: an RDATA has run since reset (R25). -/
  rdoutSet : Bool
  /-- PINS (R27). -/
  pins : Pins
  /-- PINS holds a value: INIT's PinSetup has run since reset (R28). -/
  pinsSet : Bool
  /-- PHASE (R30); READY is a view of it (`State.ready`). -/
  phase : Phase
  /-- TRACE, oldest first (R32). -/
  trace : List Event
  /-- The environment on the pins (R66, R75). -/
  ctrl : Ctrl
  /-- The parameters (R8). -/
  cfg : Config
  /-- The requests that are still with the host, in the order it presents them (R33). -/
  host : List HostRequest
  /-- The frame on the bitmap input port (R170). -/
  bitmapPort : List Byte
  /-- The model's own: how many draws have been taken (R11, log 7). -/
  draws : Nat
deriving DecidableEq, Repr

/-- No step of this machine faults: "The block has no exception, no trap and no handler" (60_exceptions.md R200). -/
inductive Fault where
deriving DecidableEq, Repr

/-- Why a step has no meaning. -/
inductive Refusal where
  /-- Raised by an arm of `exec` whose instruction has no meaning yet (safe). No arm raises it. -/
  | notModelled (mnemonic : String)
  /-- Raised by `step` while READY = 0 (safe): "The port accepts a request only when READY = 1" (10_state.md R33), and concurrent invocation
  is treated as "refuse / stuck" (93_implementation_defined.md). No state at a step boundary has READY = 0 (R30). -/
  | portNotReady
deriving DecidableEq, Repr

/-- The machine after block reset (10_state.md R36, 70_reset_and_hazards.md R230). RDOUT and PINS have no value after reset: their bytes
here are named by the model (DESIGN CHOICE, log 3, log 4, unsafe) and `rdoutSet`, `pinsSet` say that they are none. -/
def State.reset : State where
  col := 0#5
  line := 0#3
  status := .ok
  rdout := 0#8
  rdoutSet := false
  pins := ⟨false, false, false, false, false, 0#8, .output, 0#8⟩
  pinsSet := false
  phase := .idle
  trace := []
  ctrl := .unspecified
  cfg := Config.standard
  host := []
  bitmapPort := []
  draws := 0

end Sys2Proof.Machine
end

