-- ==== Sys2Proof/Machine/Operands.lean ====
section
/-! DEFINITION. What the requests compute from their operands: bounds predicates (41_addressing.md R141), page and bit of a pixel
(20_memory.md R51), the addressing sequence's bytes (30_encoding.md R100), the bit-clear mask (43_graphics.md R172), the wrap condition
(42_text_cursor.md R151) and the glyph table (R153). -/

namespace Sys2Proof.Machine

/-- `PixelOK(x, y) = (x < 128) and (y < 64)` (R141). -/
def pixelOK (x y : Byte) : Bool := x.toNat < 128 && y.toNat < 64

/-- `LineOK(l) = (l < 8)` (R141). -/
def lineOK (l : Byte) : Bool := l.toNat < 8

/-- `y div 8`, the page of a pixel row (R51, R142). -/
def pageOf (y : Byte) : Byte := y / 8#8

/-- `y mod 8`, the bit of a pixel row in its byte (R51, R171). -/
def bitOf (y : Byte) : Nat := y.toNat % 8

/-- The address of the display byte at a page and a column, `page*128 + column` (R11, R66). -/
def displayAddr (page column : Nat) : Nat := page * 128 + column

/-- The four bytes of `AddrSeq(x, p)`, in order (R100, R140). -/
def addrSeqBytes (cfg : Config) (x p : Byte) : List Byte := [cfg.cmdSetColumn, x, 127#8, cfg.cmdPageStart ||| p]

/-- `ClrMask(k) = ~(1 << k)`, computed at 8 bits (R172). -/
def clrMask (k : Nat) : Byte := ~~~(1#8 <<< k)

/-- `Wrap(c) = (c = 0x0A) or (COL >= CAP)` (R151). Newline as 0x0A is PRESUMED by the spec (log 14). -/
def wraps (c : Byte) (col : BitVec 5) : Bool := c == 0x0A#8 || Config.cap ≤ col.toNat

/-- Whether a code has an entry in the glyph resource, 32 <= c <= 126 (R153). -/
def printable (c : Byte) : Bool := 32 ≤ c.toNat && c.toNat ≤ 126

/-- `GLYPH(c, k)`, byte k of the entry at index c - 32 (R50, R153); used for printable codes alone, whose index is below 95. -/
def glyphByte (cfg : Config) (c : Byte) (k : Fin 5) : Byte :=
  if h : c.toNat - 32 < 95 then (cfg.glyph[c.toNat - 32])[k] else 0#8

end Sys2Proof.Machine
end

