-- ==== Sys2Proof/WellFormed.lean ====
section
/-! DEFINITION. Well-formed terms. A request has no ill-formed operand: every 8-bit value of every operand field is a legal encoding,
and an out-of-range coordinate is a legal request with a status (30_encoding.md R92, 60_exceptions.md R203). The parameters do have
conditions (00_scope.md R8, 30_encoding.md R99, 20_memory.md R76), each a named check here. -/

namespace Sys2Proof

/-- Every operand of every request is an 8-bit field and every value of it can be encoded (R92), so no request is ill-formed. -/
def Instr.wellFormed : Instr → Bool
  | .wcmd _ | .wdata _ | .rdata | .gotoPixel _ _ | .gotoLine _ | .putChar _ | .blit | .clearPixel _ _ | .clearScreen | .init => true

/-- `CMD_PAGE_START` has bits [2:0] = 000 (R8, R99). -/
def Config.pageStartLowBitsZero (cfg : Config) : Bool := cfg.cmdPageStart &&& 0x07#8 == 0#8

/-- `CMD_SET_COLUMN` takes two argument bytes, start and end (R76, R98). -/
def Config.setColumnTakesTwo (cfg : Config) : Bool := cfg.argc cfg.cmdSetColumn == 2

/-- Each of the eight page-start bytes takes no argument (R76, R99). -/
def Config.pageStartTakesNone (cfg : Config) : Bool :=
  (List.range 8).all fun p => cfg.argc (cfg.cmdPageStart ||| BitVec.ofNat 8 p) == 0

/-- The parameters meet the conditions R8, R98 and R99 put on them under the `CTRL_ARGC` table. -/
def Config.wellFormed (cfg : Config) : Bool :=
  cfg.pageStartLowBitsZero && cfg.setColumnTakesTwo && cfg.pageStartTakesNone

end Sys2Proof
end

