-- ==== Sys2Proof/Machine/Controller.lean ====
section
/-! DEFINITION. Display memory and the reference controller, the environment of 20_memory.md section 5: memory in one canonical form, command
framing (R67), execution (R68 to R70), data and read transactions (R71 to R73), the unspecified state (R74, R75), and when an
initialization script conforms (44_lifecycle.md R193). -/

namespace Sys2Proof.Machine

/-- What an address the memory does not list reads as: the byte INIT leaves everywhere (R74, log 10). -/
def Memory.unlisted : Byte := 0#8

/-- `MemRead(addr, 1)` (R11). -/
def Memory.read : Memory → Nat → Byte
  | [], _ => Memory.unlisted
  | (k, v) :: rest, a => if a = k then v else Memory.read rest a

/-- `MemWrite(addr, 1, b)` (R11), keeping the canonical form. -/
def Memory.write : Memory → Nat → Byte → Memory
  | [], a, b => if b = Memory.unlisted then [] else [(a, b)]
  | (k, v) :: rest, a, b =>
    if a < k then (if b = Memory.unlisted then (k, v) :: rest else (a, b) :: (k, v) :: rest)
    else if a = k then (if b = Memory.unlisted then rest else (a, b) :: rest)
    else (k, v) :: Memory.write rest a b

/-- Every address of the memory is above `lo` or equal to it, and the addresses rise strictly. -/
def Memory.risingFrom : Nat → Memory → Bool
  | _, [] => true
  | lo, (k, _) :: rest => lo ≤ k && Memory.risingFrom (k + 1) rest

/-- An entry lies in the display's 1024 bytes and does not hold what an unlisted address reads as. -/
def Memory.entryOK (c : Host.Cell) : Bool := c.1 < Config.displayBytes && c.2 != Memory.unlisted

/-- The canonical form: addresses rise strictly, and every entry is in the display and holds something else than an unlisted address. -/
def Memory.wf (m : Memory) : Bool := m.risingFrom 0 && m.all Memory.entryOK

/-- The address the pointer stands at, `PPTR*128 + CPTR` (R71). -/
def Controller.addr (c : Controller) : Nat := displayAddr c.pptr.toNat c.cptr.toNat

/-- `Advance()` (R72). -/
def Controller.advance (cfg : Config) (c : Controller) : Controller :=
  if c.cptr = c.cend then
    { c with
      cptr := match cfg.ctrlWrapCol with | .zero => 0#7 | .start => c.cstart
      pptr := c.pptr + 1#3 }
  else { c with cptr := c.cptr + 1#7 }

/-- Command framing (R67): PEND after the command byte `b`, and the command it completes with its arguments, if it completes one. -/
def frame (cfg : Config) (pend : Option Pending) (b : Byte) : Option Pending × Option (Byte × List Byte) :=
  match pend with
  | some p =>
    if p.need ≤ 1 then (none, some (p.cmd, p.args ++ [b]))
    else (some { p with need := p.need - 1, args := p.args ++ [b] }, none)
  | none =>
    if cfg.argc b = 0 then (none, some (b, []))
    else (some { cmd := b, need := cfg.argc b, args := [] }, none)

/-- Whether a byte is a page-start command, `b & 0xF8 = CMD_PAGE_START` (R69). -/
def isPageStart (cfg : Config) (b : Byte) : Bool := b &&& 0xF8#8 == cfg.cmdPageStart

/-- `Execute(CMD_SET_COLUMN, [s, e])` (R68). -/
def Controller.setColumn (c : Controller) (s e : Byte) : Ctrl :=
  if s.toNat ≤ e.toNat ∧ e.toNat ≤ 127 then
    .specified { c with cstart := s.setWidth 7, cend := e.setWidth 7, cptr := s.setWidth 7 }
  else .unspecified

/-- `Execute(cmd, args)` (R68 to R70). A command that is neither set column nor page start changes nothing, whatever its arguments: R70 read
over R75's general words, of which R75 gives set column as the example (DEDUCED, log 24, unsafe). A set-column or page-start command with another number of arguments, which only a `CTRL_ARGC` that
disagrees with R76 can frame, leaves the reference state unspecified (DESIGN CHOICE, log 11, safe). -/
def Controller.execute (cfg : Config) (c : Controller) (cmd : Byte) (args : List Byte) : Ctrl :=
  match args with
  | [] =>
    if isPageStart cfg cmd then .specified { c with pptr := cmd.setWidth 3 }
    else if cmd = cfg.cmdSetColumn then .unspecified
    else .specified c
  | [s, e] =>
    if cmd = cfg.cmdSetColumn then c.setColumn s e
    else if isPageStart cfg cmd then .unspecified
    else .specified c
  | _ => if cmd = cfg.cmdSetColumn || isPageStart cfg cmd then .unspecified else .specified c

/-- A `Cmd(b)` transaction at the reference controller (R67). -/
def Controller.onCmd (cfg : Config) (c : Controller) (b : Byte) : Ctrl :=
  match frame cfg c.pend b with
  | (pend, none) => .specified { c with pend := pend }
  | (pend, some (cmd, args)) => Controller.execute cfg { c with pend := pend } cmd args

/-- A `Data(b)` transaction (R71); while PEND is not none it leaves the reference state unspecified (R67). -/
def Controller.onData (cfg : Config) (c : Controller) (b : Byte) : Ctrl :=
  match c.pend with
  | some _ => .unspecified
  | none => .specified (Controller.advance cfg { c with mem := c.mem.write c.addr b })

/-- The write transactions at the environment: an unspecified controller stays unspecified (R75: "every later"). -/
def Ctrl.onWrite (cfg : Config) (k : BusKind) (b : Byte) : Ctrl → Ctrl
  | .unspecified => .unspecified
  | .specified c =>
    match k with
    | .cmd => Controller.onCmd cfg c b
    | .data => Controller.onData cfg c b

/-- The environment after a list of write transactions of one kind, in order (R62). -/
def Ctrl.onWrites (cfg : Config) (k : BusKind) (bs : List Byte) (x : Ctrl) : Ctrl := bs.foldl (fun x b => x.onWrite cfg k b) x

/-- What `EnvRead()` gives when `n` draws have been taken: `MemRead` at the pointer under a specified reference controller with no command
pending (R73), and a fresh draw otherwise (R67, R74, R75). -/
def Ctrl.envRead (n : Nat) : Ctrl → Byte
  | .unspecified => Config.draw8 n
  | .specified c =>
    match c.pend with
    | some _ => Config.draw8 n
    | none => c.mem.read c.addr

/-- How many draws `EnvRead()` takes. -/
def Ctrl.envDraws : Ctrl → Nat
  | .unspecified => 1
  | .specified c =>
    match c.pend with
    | some _ => 1
    | none => 0

/-- The environment after the real strobe of a read: "`Advance()` runs exactly once" (R73); unspecified if a command was pending (R67). -/
def Ctrl.afterRead (cfg : Config) : Ctrl → Ctrl
  | .unspecified => .unspecified
  | .specified c =>
    match c.pend with
    | some _ => .unspecified
    | none => .specified (Controller.advance cfg c)

/-- One trace event at the environment (R62, R67 to R75): the controller receives the transactions in TRACE order, and `ResAssert` makes it
unspecified (44_lifecycle.md R192). -/
def Ctrl.onEvent (cfg : Config) (x : Ctrl) : Event → Ctrl
  | .cmd b => x.onWrite cfg .cmd b
  | .data b => x.onWrite cfg .data b
  | .read _ => x.afterRead cfg
  | .resAssert => .unspecified
  | .pinSetup | .resRelease | .delay _ => x

/-- The reference controller "after INIT": MEM all 0x00, CPTR = 0, PPTR = 0, CSTART = 0, CEND = 127, PEND none (R74). -/
def Controller.afterInit : Controller where
  mem := []
  cptr := 0#7
  pptr := 0#3
  cstart := 0#7
  cend := 127#7
  pend := none

/-- The commands a list of command bytes frames into from PEND, with their arguments; `none` if one is left pending (R67, R193). -/
def framedCommands (cfg : Config) : Option Pending → List Byte → Option (List (Byte × List Byte))
  | none, [] => some []
  | some _, [] => none
  | pend, b :: rest =>
    match frame cfg pend b with
    | (pend', none) => framedCommands cfg pend' rest
    | (pend', some c) => (framedCommands cfg pend' rest).map (c :: ·)

/-- The fourteen named steps of an initialization script (R193). -/
inductive InitStep where
  | displayOff
  | clockDivider
  | multiplexRatio
  | displayOffset
  | startLine
  | comScanDirection
  | comPinsConfig
  | contrast
  | preCharge
  | vcomhDeselect
  | normalDisplay
  | horizontalAddressing
  | columnRange
  | displayOn
deriving DecidableEq, Repr

/-- The order R193 fixes. -/
def InitStep.inOrder : List InitStep :=
  [.displayOff, .clockDivider, .multiplexRatio, .displayOffset, .startLine, .comScanDirection, .comPinsConfig, .contrast,
   .preCharge, .vcomhDeselect, .normalDisplay, .horizontalAddressing, .columnRange, .displayOn]

/-- Whether a framed command is the command of a named step: the bytes are the guide of R76 (PRESUMED by the spec, log 9). "Step 12 must
select horizontal addressing, and step 13 must set the column range 0..127" (R193). -/
def InitStep.accepts (cfg : Config) (cmd : Byte) (args : List Byte) : InitStep → Bool
  | .displayOff => cmd == 0xAE#8
  | .clockDivider => cmd == 0xD5#8
  | .multiplexRatio => cmd == 0xA8#8
  | .displayOffset => cmd == 0xD3#8
  | .startLine => 0x40 ≤ cmd.toNat && cmd.toNat ≤ 0x7F
  | .comScanDirection => cmd == 0xC0#8 || cmd == 0xC8#8
  | .comPinsConfig => cmd == 0xDA#8
  | .contrast => cmd == 0x81#8
  | .preCharge => cmd == 0xD9#8
  | .vcomhDeselect => cmd == 0xDB#8
  | .normalDisplay => cmd == 0xA6#8
  | .horizontalAddressing => cmd == 0x20#8 && args == [0x00#8]
  | .columnRange => cmd == cfg.cmdSetColumn && args == [0#8, 127#8]
  | .displayOn => cmd == 0xAF#8

/-- Whether framed commands are the named steps, one each and in order. -/
def followsSteps (cfg : Config) : List InitStep → List (Byte × List Byte) → Bool
  | [], [] => true
  | st :: steps, (cmd, args) :: cmds => InitStep.accepts cfg cmd args st && followsSteps cfg steps cmds
  | _, _ => false

/-- Whether INIT_SCRIPT conforms (R193): under `CTRL_ARGC` it frames completely, into the 14 named steps in order. -/
def scriptConforms (cfg : Config) : Bool :=
  match framedCommands cfg none cfg.initScript with
  | some cmds => followsSteps cfg InitStep.inOrder cmds
  | none => false

/-- Whether INIT_SCRIPT sends no argument that R68 and R75 make the reference state unspecified for. -/
def scriptInRange (cfg : Config) : Bool :=
  match Ctrl.onWrites cfg .cmd cfg.initScript (.specified Controller.afterInit) with
  | .unspecified => false
  | .specified _ => true

/-- What an INIT must meet to end in the state of R74: the environment is the reference controller (log 6), the delays are as long as the
controller needs (70_reset_and_hazards.md R241, log 23), the script conforms (R193, R232), and R74's derivation goes through for these
parameters: they are well-formed, so that `AddrSeq(0, 0)` frames as R67 to R69 take it, and the script's arguments are in range (R75). Where
they are not, the model's choice is that the state stays unspecified (DESIGN CHOICE, log 8, safe). -/
def initBoots (cfg : Config) : Bool :=
  cfg.attached && cfg.delaysSuffice && scriptConforms cfg && cfg.wellFormed && scriptInRange cfg

/-- The environment when an INIT completes: the state of R74, or unspecified where the INIT does not meet its conditions (R74, R232, R241). -/
def Ctrl.whenInitCompletes (cfg : Config) : Ctrl :=
  if initBoots cfg then .specified Controller.afterInit else .unspecified

end Sys2Proof.Machine
end

