-- ==== Sys2Proof/Machine/Flags.lean ====
section
/-! DEFINITION. STATUS is "the only flag-like state in the block" (10_state.md R24, R31): its numbers (60_exceptions.md R202), READY as the
view of PHASE that R33 says it is, and what the host reads of the result registers (R23, R25, R212). -/

namespace Sys2Proof.Machine

/-- The 2-bit code of a status (R202). -/
def Status.code : Status → BitVec 2
  | .ok => 0#2
  | .outOfBounds => 1#2
  | .sizeMismatch => 2#2
  | .illegalRequest => 3#2

/-- READY: "READY = 1 when PHASE = IDLE, and 0 otherwise" (R33). -/
def State.ready (s : State) : BitVec 1 := if s.phase = .idle then 1#1 else 0#1

/-- A host read of STATUS (R24, R205). -/
def State.hostStatus (s : State) : BitVec 2 := s.status.code

/-- A host read of RDOUT: "a host read of RDOUT before then is refused" (R25), so `none` until the first RDATA. -/
def State.hostRdout (s : State) : Option Byte := if s.rdoutSet then some s.rdout else none

/-- PINS as far as it has a value: `none` until INIT's PinSetup (R28). -/
def State.pinsView (s : State) : Option Pins := if s.pinsSet then some s.pins else none

end Sys2Proof.Machine
end

