-- ==== Sys2Proof/Machine/Pins.lean ====
section
/-! DEFINITION. The pin level of the bus protocol sequencer: the pin steps of the two cycles (40_bus_protocol.md R121, R124), PinSetup and the
reset pulse's edges (44_lifecycle.md R191, R192), the idle levels (10_state.md R29), the settling rule (R126), the observer that
recognises transactions from pins (R127), and the electrical levels (R129). -/

namespace Sys2Proof.Machine

/-- The sequencer's pin steps, under the spec's labels (R120): W1..W6 of a write cycle and RS1..RS10 of a read cycle. -/
inductive PinStep where
  | w1
  | w2 (k : BusKind)
  | w3 (b : Byte)
  | w4
  | w5
  | w6
  | rs1
  | rs2
  | rs3
  /-- The dummy strobe, with the byte on the bus during it (R73: discarded). -/
  | rs4 (dummy : Byte)
  | rs5
  /-- The real strobe, with the byte the environment presents, `EnvRead()`. -/
  | rs6 (v : Byte)
  /-- The sample `v <- DIN`: no pin changes. -/
  | rs7
  | rs8
  | rs9
  | rs10
deriving DecidableEq, Repr

/-- What one pin step does to PINS (R121, R124). -/
def Pins.apply (p : Pins) : PinStep → Pins
  | .w1 => { p with cs := true }
  | .w2 k => { p with dc := match k with | .cmd => false | .data => true }
  | .w3 b => { p with dout := b }
  | .w4 => { p with wr := true }
  | .w5 => { p with wr := false }
  | .w6 => { p with cs := false }
  | .rs1 => { p with ddir := .input }
  | .rs2 => { p with cs := true }
  | .rs3 => { p with dc := true }
  | .rs4 dummy => { p with rd := true, din := dummy }
  | .rs5 => { p with rd := false }
  | .rs6 v => { p with rd := true, din := v }
  | .rs7 => p
  | .rs8 => { p with rd := false }
  | .rs9 => { p with cs := false }
  | .rs10 => { p with ddir := .output }

/-- The write cycle's pin steps (R121). -/
def writeCycle (k : BusKind) (b : Byte) : List PinStep := [.w1, .w2 k, .w3 b, .w4, .w5, .w6]

/-- The read cycle's pin steps, with the byte on the bus at the dummy strobe and at the real one (R124). -/
def readCycle (dummy v : Byte) : List PinStep :=
  [.rs1, .rs2, .rs3, .rs4 dummy, .rs5, .rs6 v, .rs7, .rs8, .rs9, .rs10]

/-- PINS after a list of pin steps. -/
def Pins.run (p : Pins) (steps : List PinStep) : Pins := steps.foldl Pins.apply p

/-- PINS after each of a list of pin steps, in order. -/
def Pins.history (p : Pins) : List PinStep → List Pins
  | [] => []
  | st :: rest => p.apply st :: (p.apply st).history rest

/-- The levels PinSetup drives (R191). DIN is the environment's and the spec gives it no value from here to the first read cycle: the model
keeps the byte `p` holds (DESIGN CHOICE, log 12, unsafe). -/
def Pins.setup (p : Pins) : Pins :=
  { p with cs := false, dc := true, wr := false, rd := false, res := false, dout := 0#8, ddir := .output }

/-- The idle levels between bus cycles (R29). -/
def Pins.idle (p : Pins) : Bool := !p.cs && !p.wr && !p.rd && !p.res && p.ddir == .output

/-- What R126 asks of two successive pin states: WR and RD are never asserted together; CS is asserted while a strobe is and before it is;
CS, DC, DDIR (and DOUT for a write) hold from before a strobe's assertion until after its deassertion. -/
def Pins.settled (p q : Pins) : Bool :=
  !(q.wr && q.rd)
    && (!(p.wr || q.wr) || (p.cs && q.cs && p.dc == q.dc && p.dout == q.dout && p.ddir == .output && q.ddir == .output))
    && (!(p.rd || q.rd) || (p.cs && q.cs && p.dc && q.dc && p.ddir == .input && q.ddir == .input))

/-- R126 along a run of pin states that starts at `p`. -/
def Pins.settledAlong (p : Pins) : List Pins → Bool
  | [] => true
  | q :: rest => p.settled q && q.settledAlong rest

/-- The controller-side observer of R127, from pin state `p`; `second` says that one RD strobe of a pair has been seen. A `Cmd` or `Data` at
each deassertion of WR while CS = 1 and DDIR = OUT; a `Read` at each second RD assertion while CS = 1 and DC = 1. -/
def Pins.recognise (p : Pins) (second : Bool) : List Pins → List Event
  | [] => []
  | q :: rest =>
    if p.wr && !q.wr && q.cs && q.ddir == .output then
      (if q.dc then Event.data q.dout else Event.cmd q.dout) :: q.recognise second rest
    else if !p.rd && q.rd && q.cs && q.dc then
      if second then Event.read q.din :: q.recognise false rest else q.recognise true rest
    else q.recognise second rest

/-- Electrical levels of the control lines, `true` for high (R129). -/
structure Levels where
  cs  : Bool
  dc  : Bool
  wr  : Bool
  rd  : Bool
  res : Bool
deriving DecidableEq, Repr

/-- The electrical levels of a pin state under `CTRL_ACTIVE_LOW`: RES is low when asserted, DC is low for command and high for data, and CS,
WR and RD are low when asserted exactly if `activeLow` (R129). -/
def Pins.levels (p : Pins) (activeLow : Bool) : Levels where
  cs := p.cs != activeLow
  dc := p.dc
  wr := p.wr != activeLow
  rd := p.rd != activeLow
  res := !p.res

end Sys2Proof.Machine
end

