-- ==== Sys2Proof/Machine/Ops.lean ====
section
/-! DEFINITION. The operations the requests are written in, under the names of 00_scope.md R11: Emit, BusWrite, BusRead, GlyphRead, the
addressing sequence (41_addressing.md R140), PinSetup and ResetPulse (44_lifecycle.md R191, R192), completion, and `raise Status(code)`
(60_exceptions.md R201), the block's only way of turning a request away. -/

namespace Sys2Proof.Machine

/-- The event of a write cycle (R121). -/
def BusKind.event : BusKind → Byte → Event
  | .cmd, b => .cmd b
  | .data, b => .data b

/-- `Emit(e)` (R11): TRACE is append-only (R32). -/
def State.emit (s : State) (e : Event) : State := { s with trace := s.trace ++ [e] }

/-- PINS after a cycle. "PINS has no value until PinSetup" (R28, R233), so a cycle before it gives it none (log 4). -/
def State.pinsAfter (s : State) (steps : List PinStep) : Pins := if s.pinsSet then s.pins.run steps else s.pins

/-- `BusWrite(kind, b)`: the pin steps of the write cycle, the environment's latch, and the event (R121). -/
def State.busWrite (s : State) (k : BusKind) (b : Byte) : State :=
  { s with
    pins := s.pinsAfter (writeCycle k b)
    ctrl := s.ctrl.onWrite s.cfg k b
    trace := s.trace ++ [k.event b] }

/-- Write cycles of one kind, one for each byte, in order (R62). -/
def State.busWriteAll (s : State) (k : BusKind) (bs : List Byte) : State := bs.foldl (fun t b => t.busWrite k b) s

/-- The byte `BusRead()` returns, `EnvRead()` at the real strobe (R11, R124); the dummy strobe takes a draw before it (R73). -/
def State.readValue (s : State) : Byte := s.ctrl.envRead (s.draws + 1)

/-- `BusRead()`: the pin steps of the read cycle, one advance of the environment, and the event (R124, R73). -/
def State.busRead (s : State) : State :=
  { s with
    pins := s.pinsAfter (readCycle (Config.draw8 s.draws) s.readValue)
    ctrl := s.ctrl.afterRead s.cfg
    draws := s.draws + 1 + s.ctrl.envDraws
    trace := s.trace ++ [.read s.readValue] }

/-- `AddrSeq(x, p)`: four command write cycles (R140). -/
def State.addrSeq (s : State) (x p : Byte) : State := s.busWriteAll .cmd (addrSeqBytes s.cfg x p)

/-- `GlyphRead(c, 0)` to `GlyphRead(c, 4)`: the glyph resource for a printable code, and five draws for any other (R153). -/
def State.glyphBytes (s : State) (c : Byte) : List Byte :=
  if printable c then (List.finRange 5).map (glyphByte s.cfg c)
  else (List.range 5).map fun k => Config.draw8 (s.draws + k)

/-- How many draws a glyph takes. -/
def glyphDraws (c : Byte) : Nat := if printable c then 0 else 5

/-- One byte of the reference controller's display memory, observed (R212): none while the reference state is unspecified. -/
def State.displayByte (s : State) (a : Nat) : Option Byte :=
  match s.ctrl with
  | .unspecified => none
  | .specified c => some (c.mem.read a)

/-- Whether an event is a bus transaction, and not one of INIT's lifecycle events (R32). -/
def Event.isBus : Event → Bool
  | .cmd _ | .data _ | .read _ => true
  | .pinSetup | .resAssert | .resRelease | .delay _ => false

/-- The text cursor set to the start of a line (R143, R152). -/
def State.setCursor (s : State) (line : BitVec 3) : State := { s with col := 0#5, line := line }

/-- "if GOTO_LINE_SETS_CURSOR: COL <- 0; LINE <- A" (R143, R144). -/
def State.gotoLineCursor (s : State) (line : BitVec 3) : State :=
  { s with
    col := if s.cfg.gotoLineSetsCursor then 0#5 else s.col
    line := if s.cfg.gotoLineSetsCursor then line else s.line }

/-- The end of a request that carries out its rule: "STATUS <- OK", and the block is back at IDLE (R24, R30). -/
def State.complete (s : State) : State := { s with status := .ok, phase := .idle }

/-- `raise Status(code)`: "it ends the request with `STATUS <- code`; it appends nothing to TRACE and performs no pin step", and the block
returns to IDLE with READY = 1 (R201). Nothing is saved and control goes nowhere (R205). -/
def State.raiseStatus (s : State) (code : Status) : State := { s with status := code, phase := .idle }

/-- `PinSetup()`: one atomic update of PINS, then its event (R191). -/
def State.pinSetup (s : State) : State :=
  { s with pins := s.pins.setup, pinsSet := true, trace := s.trace ++ [.pinSetup] }

/-- RES <- 1 with its event; `ResAssert` makes every field of the reference controller unspecified (R192, R74). -/
def State.resAssert (s : State) : State :=
  { s with
    pins := if s.pinsSet then { s.pins with res := true } else s.pins
    ctrl := .unspecified
    trace := s.trace ++ [.resAssert] }

/-- RES <- 0 with its event (R192). -/
def State.resRelease (s : State) : State :=
  { s with
    pins := if s.pinsSet then { s.pins with res := false } else s.pins
    trace := s.trace ++ [.resRelease] }

/-- `Delay(t)`: an event and no duration (R11, R243). -/
def State.delay (s : State) (t : Nat) : State := s.emit (.delay t)

/-- `ResetPulse()` (R192). -/
def State.resetPulse (s : State) : State :=
  (((s.resAssert).delay s.cfg.tResLow).resRelease).delay s.cfg.tResRecover

/-- Position to (0,0), then 1024 data bytes of 0x00 (R173, R190). -/
def State.clearScreen (s : State) : State :=
  (s.addrSeq 0#8 0#8).busWriteAll .data (List.replicate Config.displayBytes 0#8)

/-- The environment at the end of an INIT (R74, R241; log 8). -/
def State.initDone (s : State) : State := { s with ctrl := Ctrl.whenInitCompletes s.cfg }

end Sys2Proof.Machine
end

