-- ==== Sys2Proof/Machine/Addressing.lean ====
section
/-! DEFINITION. The address engine (41_addressing.md): GOTO_PIXEL and GOTO_LINE. It keeps nothing (R146). -/

namespace Sys2Proof.Machine

/-- GOTO_PIXEL: OUT_OF_BOUNDS before any bus cycle, or `AddrSeq(x, y div 8)` (R142). -/
def execGotoPixel (x y : Byte) (s : State) : Host.Outcome State Fault Refusal :=
  if pixelOK x y then .next (s.addrSeq x (pageOf y)).complete
  else .next (s.raiseStatus .outOfBounds)

/-- GOTO_LINE: OUT_OF_BOUNDS before any bus cycle, or `AddrSeq(0, line)` and the text cursor under the parameter (R143, R144). -/
def execGotoLine (line : Byte) (s : State) : Host.Outcome State Fault Refusal :=
  if lineOK line then .next ((s.addrSeq 0#8 line).gotoLineCursor (line.setWidth 3)).complete
  else .next (s.raiseStatus .outOfBounds)

end Sys2Proof.Machine
end

