-- ==== Sys2Proof/Machine/Bus.lean ====
section
/-! DEFINITION. The three requests that expose the bus cycles to the host (40_bus_protocol.md): WCMD, WDATA, RDATA. -/

namespace Sys2Proof.Machine

/-- WCMD: one command byte; every byte value is sent unchanged (R122). -/
def execWcmd (byte : Byte) (s : State) : Host.Outcome State Fault Refusal :=
  .next (s.busWrite .cmd byte).complete

/-- WDATA: one data byte, to wherever the controller pointer stands (R123). -/
def execWdata (byte : Byte) (s : State) : Host.Outcome State Fault Refusal :=
  .next (s.busWrite .data byte).complete

/-- RDATA: one read cycle; RDOUT takes the byte (R125). -/
def execRdata (s : State) : Host.Outcome State Fault Refusal :=
  .next { s.busRead with rdout := s.readValue, rdoutSet := true }.complete

end Sys2Proof.Machine
end

