-- ==== Sys2Proof/Machine/Graphics.lean ====
section
/-! DEFINITION. The composite graphics requests (43_graphics.md): BLIT, CLEAR_PIXEL, CLEAR_SCREEN. -/

namespace Sys2Proof.Machine

/-- BLIT: SIZE_MISMATCH before any bus cycle unless the frame has 1024 bytes; then (0,0) and the bytes in index order (R170). -/
def execBlit (s : State) : Host.Outcome State Fault Refusal :=
  if s.bitmapPort.length = Config.displayBytes then
    .next ((s.addrSeq 0#8 0#8).busWriteAll .data s.bitmapPort).complete
  else .next (s.raiseStatus .sizeMismatch)

/-- CLEAR_PIXEL: OUT_OF_BOUNDS before any bus cycle; otherwise read the byte, position again and write it back with bit `y mod 8` cleared
(R171, R172, R174). RDOUT is not written. -/
def execClearPixel (x y : Byte) (s : State) : Host.Outcome State Fault Refusal :=
  if pixelOK x y then
    let t := s.addrSeq x (pageOf y)
    .next ((t.busRead.addrSeq x (pageOf y)).busWrite .data (t.readValue &&& clrMask (bitOf y))).complete
  else .next (s.raiseStatus .outOfBounds)

/-- CLEAR_SCREEN (R173); the text cursor stays (R160). -/
def execClearScreen (s : State) : Host.Outcome State Fault Refusal :=
  .next s.clearScreen.complete

end Sys2Proof.Machine
end

