-- ==== Sys2Proof/Machine/Lifecycle.lean ====
section
/-! DEFINITION. The controller lifecycle (44_lifecycle.md): INIT, "a fixed protocol script, not a general state machine" (R194). -/

namespace Sys2Proof.Machine

/-- INIT: PinSetup, ResetPulse, the bytes of INIT_SCRIPT as commands, then clear screen (R190). It may be issued again. -/
def execInit (s : State) : Host.Outcome State Fault Refusal :=
  .next ((s.pinSetup.resetPulse.busWriteAll .cmd s.cfg.initScript).clearScreen).initDone.complete

end Sys2Proof.Machine
end

