-- ==== Sys2Proof/Machine/Text.lean ====
section
/-! DEFINITION. The text cursor state machine (42_text_cursor.md): PUT_CHAR's two branches. -/

namespace Sys2Proof.Machine

/-- The wrap branch: COL <- 0, LINE <- LINE + 1 mod 8, then goto_line of the new line; the character is not rendered (R152). -/
def State.wrapLine (s : State) : State :=
  let line := s.line + 1#3
  (((s.setCursor line).addrSeq 0#8 (line.setWidth 8)).gotoLineCursor line)

/-- The render branch: five glyph columns, the spacer column 0x00, COL <- COL + 1, and no addressing (R154). -/
def State.renderGlyph (s : State) (c : Byte) : State :=
  let t := (s.busWriteAll .data (s.glyphBytes c)).busWrite .data 0#8
  { t with col := t.col + 1#5, draws := t.draws + glyphDraws c }

/-- PUT_CHAR (R155): the wrap condition is evaluated once, before any glyph lookup (R151). -/
def execPutChar (code : Byte) (s : State) : Host.Outcome State Fault Refusal :=
  if wraps code s.col then .next s.wrapLine.complete
  else .next (s.renderGlyph code).complete

end Sys2Proof.Machine
end

