-- ==== Sys2Proof/Machine/Dispatch.lean ====
section
/-! DEFINITION. One arm per request: each is one call of its meaning. -/

namespace Sys2Proof.Machine

def exec (i : Instr) (s : State) : Host.Outcome State Fault Refusal :=
  match i with
  | .wcmd byte => Sys2Proof.Machine.execWcmd byte s
  | .wdata byte => Sys2Proof.Machine.execWdata byte s
  | .rdata => Sys2Proof.Machine.execRdata s
  | .gotoPixel x y => Sys2Proof.Machine.execGotoPixel x y s
  | .gotoLine line => Sys2Proof.Machine.execGotoLine line s
  | .putChar code => Sys2Proof.Machine.execPutChar code s
  | .blit => Sys2Proof.Machine.execBlit s
  | .clearPixel x y => Sys2Proof.Machine.execClearPixel x y s
  | .clearScreen => Sys2Proof.Machine.execClearScreen s
  | .init => Sys2Proof.Machine.execInit s

end Sys2Proof.Machine
end

