-- ==== Sys2Proof/Machine/Port.lean ====
section
/-! DEFINITION. The host request port (10_state.md R33): how the block takes the next request the host presents. -/

namespace Sys2Proof.Machine

/-- The request `r` accepted at the port: it is no longer with the host, and its frame stands on the bitmap input port. -/
def State.accept (s : State) (r : HostRequest) (rest : List HostRequest) : State :=
  { s with host := rest, bitmapPort := r.bitmap }

/-- A program loaded: its requests stand with the host after those already there (log 2). -/
def State.submit (s : State) (rs : List HostRequest) : State := { s with host := s.host ++ rs }

/-- The host with one more request in front, READY = 1. The frame is the one already on the bitmap port. -/
def State.present (s : State) (w : Word) : State :=
  { s with phase := .idle, host := { word := w, bitmap := s.bitmapPort } :: s.host }

end Sys2Proof.Machine
end

