-- ==== Sys2Proof/Machine/Step.lean ====
section
/-! DEFINITION. One architectural step is one host request (00_scope.md R12): the port accepts the next request (10_state.md R33), the
decoder reads its word (30_encoding.md R96), and the request runs to completion. -/

namespace Sys2Proof.Machine

/-- One step. With no request presented the block waits at IDLE and keeps its state (70_reset_and_hazards.md R230, 60_exceptions.md R213).
An illegal word completes with ILLEGAL_REQUEST and changes nothing else (R95, R203), decided before any operand is examined (R204). -/
def step (s : State) : Host.Outcome State Fault Refusal :=
  match s.phase with
  | .busy _ => .refused .portNotReady
  | .idle =>
    match s.host with
    | [] => .next s
    | r :: rest =>
      match decode r.word with
      | .ok i => exec i (s.accept r rest)
      | .error _ => .next ((s.accept r rest).raiseStatus .illegalRequest)

/-- `s` with the request word numbered `w` presented next at the request port (log 2). -/
def State.withFetchWord (s : State) (nbits w : Nat) : State := s.present (wordOfNumber nbits w)

end Sys2Proof.Machine
end

