-- ==== Sys2Proof/Machine/Assembler.lean ====
section
/-! DEFINITION. The assembler syntax of 30_encoding.md R103 and the pseudo-request line of R104: one request a line, the mnemonic, then its
operands separated by commas, in decimal or 0x hex, or as a character literal for PUT_CHAR; and a whole program, in which a BLIT line is
followed by its bitmap. What R103's examples leave open of the text form is in log 20. -/

namespace Sys2Proof.Machine

/-- The characters before the first `sep` and those after it, if there is one. -/
def splitFirst (sep : Char) : List Char → List Char × Option (List Char)
  | [] => ([], none)
  | c :: rest =>
    if c = sep then ([], some rest)
    else
      let (before, after) := splitFirst sep rest
      (c :: before, after)

/-- The pieces between one separator and the next. -/
def splitAll (sep : Char) : List Char → List (List Char)
  | [] => [[]]
  | c :: rest =>
    if c = sep then [] :: splitAll sep rest
    else
      match splitAll sep rest with
      | [] => [[c]]
      | piece :: pieces => (c :: piece) :: pieces

/-- Leading spaces dropped. -/
def skipSpaces : List Char → List Char
  | [] => []
  | c :: rest => if c = ' ' then skipSpaces rest else c :: rest

/-- Spaces around a token dropped. -/
def trim (cs : List Char) : List Char := (skipSpaces (skipSpaces cs).reverse).reverse

/-- A digit of a base up to 16. -/
def digitValue (base : Nat) (c : Char) : Option Nat :=
  let n := c.toNat
  let v := if 48 ≤ n ∧ n ≤ 57 then n - 48 else if 65 ≤ n ∧ n ≤ 70 then n - 55 else if 97 ≤ n ∧ n ≤ 102 then n - 87 else 16
  if v < base then some v else none

/-- Digits read after the value `acc`. -/
def digitsFrom (base acc : Nat) : List Char → Option Nat
  | [] => some acc
  | c :: rest => (digitValue base c).bind fun d => digitsFrom base (acc * base + d) rest

/-- A number below 256 as a byte (R92). -/
def byteOfNat (n : Nat) : Option Byte := if n < 256 then some (BitVec.ofNat 8 n) else none

/-- A number operand, decimal or `0x` hex (R103). -/
def number : List Char → Option Byte
  | '0' :: 'x' :: d :: ds => (digitsFrom 16 0 (d :: ds)).bind byteOfNat
  | d :: ds => (digitsFrom 10 0 (d :: ds)).bind byteOfNat
  | [] => none

/-- PUT_CHAR's operand: a number, or a character literal `'c'` (R103). -/
def charOperand : List Char → Option Byte
  | ['\'', c, '\''] => byteOfNat c.toNat
  | cs => number cs

/-- PUT_STRING's operand up to the closing quote (R104). -/
def stringBytes : List Char → Option (List Byte)
  | ['"'] => some []
  | c :: rest => (byteOfNat c.toNat).bind fun b => (stringBytes rest).map (b :: ·)
  | [] => none

/-- A request of one operand. -/
def one (read : List Char → Option Byte) (f : Byte → Instr) (args : List Char) : Option (List Instr) :=
  (read args).map fun a => [f a]

/-- A request of two operands separated by a comma. -/
def two (f : Byte → Byte → Instr) (args : List Char) : Option (List Instr) :=
  match splitFirst ',' args with
  | (a, some b) => (number (trim a)).bind fun x => (number (trim b)).map fun y => [f x y]
  | (_, none) => none

/-- A request of no operand. -/
def bare (i : Instr) (args : List Char) : Option (List Instr) := if args = [] then some [i] else none

/-- The requests a line stands for (R103, R104): one, or for `PUT_STRING "s"` one PUT_CHAR a byte. -/
def assemble (text : List Char) : Option (List Instr) :=
  let (mnemonic, rest) := splitFirst ' ' (trim text)
  let args := trim (rest.getD [])
  if mnemonic = ['W', 'C', 'M', 'D'] then one number .wcmd args
  else if mnemonic = ['W', 'D', 'A', 'T', 'A'] then one number .wdata args
  else if mnemonic = ['R', 'D', 'A', 'T', 'A'] then bare .rdata args
  else if mnemonic = ['G', 'O', 'T', 'O', '_', 'P', 'I', 'X', 'E', 'L'] then two .gotoPixel args
  else if mnemonic = ['G', 'O', 'T', 'O', '_', 'L', 'I', 'N', 'E'] then one number .gotoLine args
  else if mnemonic = ['P', 'U', 'T', '_', 'C', 'H', 'A', 'R'] then one charOperand .putChar args
  else if mnemonic = ['P', 'U', 'T', '_', 'S', 'T', 'R', 'I', 'N', 'G'] then
    match args with
    | '"' :: cs => (stringBytes cs).map Instr.putString
    | _ => none
  else if mnemonic = ['B', 'L', 'I', 'T'] then bare .blit args
  else if mnemonic = ['C', 'L', 'E', 'A', 'R', '_', 'P', 'I', 'X', 'E', 'L'] then two .clearPixel args
  else if mnemonic = ['C', 'L', 'E', 'A', 'R', '_', 'S', 'C', 'R', 'E', 'E', 'N'] then bare .clearScreen args
  else if mnemonic = ['I', 'N', 'I', 'T'] then bare .init args
  else none

/-- The request words of a line (R103). -/
def assembleWords (text : List Char) : Option (List Word) := (assemble text).map (List.map encode)

/-- Number operands, one after another. -/
def numbers : List (List Char) → Option (List Byte)
  | [] => some []
  | t :: ts => (number (trim t)).bind fun b => (numbers ts).map (b :: ·)

/-- The bytes between the brackets of `buf = [...]`: none, or numbers separated by commas. -/
def bracketed (text : List Char) : Option (List Byte) :=
  match splitFirst ']' text with
  | (inner, some []) => if trim inner = [] then some [] else numbers (splitAll ',' inner)
  | (_, some (_ :: _)) => none
  | (_, none) => none

/-- The bitmap line `buf = [...]` (R103). -/
def bitmapLine (text : List Char) : Option (List Byte) :=
  match splitFirst '=' (trim text) with
  | (name, some value) =>
    if trim name = ['b', 'u', 'f'] then
      match trim value with
      | '[' :: inner => bracketed inner
      | _ => none
    else none
  | (_, none) => none

/-- A request as the host presents it, with its frame. -/
def requestOf (bitmap : List Byte) (i : Instr) : HostRequest := { word := encode i, bitmap := bitmap }

/-- The requests of a program's lines: "One request per line", and "A BLIT program line is followed by the bitmap given as `buf = [...]`"
(R103). A blank line stands for nothing (log 20). -/
def assembleLines : List (List Char) → Option (List HostRequest)
  | [] => some []
  | line :: rest =>
    if trim line = [] then assembleLines rest
    else if assemble line = some [.blit] then
      match rest with
      | [] => none
      | buf :: rest => (bitmapLine buf).bind fun b => (assembleLines rest).map (requestOf b .blit :: ·)
    else (assemble line).bind fun is => (assembleLines rest).map (is.map (requestOf []) ++ ·)

/-- The requests of a program text, each with its word and its frame, as `State.submit` takes them (R103). -/
def assembleProgram (text : List Char) : Option (List HostRequest) := assembleLines (splitAll '\n' text)

end Sys2Proof.Machine
end

