-- ==== Sys2Proof/Machine/Sequencer.lean ====
section
/-! DEFINITION. The pin level of the machine: a request as the list of its bus transactions, and PHASE advancing through them one pin step
at a time (10_state.md R30, 40_bus_protocol.md R120). 00_scope.md R12: "A model may be written at either level, and the two must agree by
that refinement"; `exec` is the transaction level, `pinStep` the pin level. Where inside a cycle the environment acts, and that the
text cursor, RDOUT and STATUS are written at the last pin step, are DESIGN CHOICES no step boundary shows (log 13). -/

namespace Sys2Proof.Machine

/-- The transactions of `AddrSeq(x, p)` (R140). -/
def addrSeqTxns (cfg : Config) (x p : Byte) : List Txn := (addrSeqBytes cfg x p).map (.write .cmd)

/-- The transactions of positioning to (0,0) and writing bytes as data. -/
def screenTxns (cfg : Config) (bs : List Byte) : List Txn := addrSeqTxns cfg 0#8 0#8 ++ bs.map (.write .data)

/-- Whether a request is turned away by its own check, and with which status (60_exceptions.md R202, R204). -/
def State.check (s : State) : Instr → Status
  | .gotoPixel x y => if pixelOK x y then .ok else .outOfBounds
  | .clearPixel x y => if pixelOK x y then .ok else .outOfBounds
  | .gotoLine l => if lineOK l then .ok else .outOfBounds
  | .blit => if s.bitmapPort.length = Config.displayBytes then .ok else .sizeMismatch
  | .wcmd _ | .wdata _ | .rdata | .putChar _ | .clearScreen | .init => .ok

/-- The transactions and lifecycle events of a request that passes its check, in order (70_reset_and_hazards.md R242). -/
def State.txns (s : State) : Instr → List Txn
  | .wcmd b => [.write .cmd b]
  | .wdata b => [.write .data b]
  | .rdata => [.read]
  | .gotoPixel x y => addrSeqTxns s.cfg x (pageOf y)
  | .gotoLine l => addrSeqTxns s.cfg 0#8 l
  | .putChar c =>
    if wraps c s.col then addrSeqTxns s.cfg 0#8 ((s.line + 1#3).setWidth 8)
    else (s.glyphBytes c).map (.write .data) ++ [.write .data 0#8]
  | .blit => screenTxns s.cfg s.bitmapPort
  | .clearPixel x y =>
    addrSeqTxns s.cfg x (pageOf y) ++ .read :: addrSeqTxns s.cfg x (pageOf y) ++ [.writeBack (clrMask (bitOf y))]
  | .clearScreen => screenTxns s.cfg (List.replicate Config.displayBytes 0#8)
  | .init =>
    [.pinSetup, .resAssert, .delay s.cfg.tResLow, .resRelease, .delay s.cfg.tResRecover]
      ++ s.cfg.initScript.map (.write .cmd) ++ screenTxns s.cfg (List.replicate Config.displayBytes 0#8)

/-- The pin steps of a transaction: six for a write, ten for a read (R242); a lifecycle event is one. -/
def Txn.pinSteps : Txn → Nat
  | .write _ _ | .writeBack _ => 6
  | .read => 10
  | .pinSetup | .resAssert | .resRelease | .delay _ => 1

/-- One pin step on PINS, where PINS has a value (R28). -/
def State.drive (s : State) (st : PinStep) : State := { s with pins := s.pinsAfter [st] }

/-- Pin step `n` (0 for W1) of a write cycle: the environment latches at W5, the event is emitted after W6 (R121). -/
def State.writePin (s : State) (k : BusKind) (b : Byte) : Nat → State
  | 0 => s.drive .w1
  | 1 => s.drive (.w2 k)
  | 2 => s.drive (.w3 b)
  | 3 => s.drive .w4
  | 4 => { s.drive .w5 with ctrl := s.ctrl.onWrite s.cfg k b }
  | _ => (s.drive .w6).emit (k.event b)

/-- Pin step `n` (0 for RS1) of a read cycle (R124) and the progress it leaves: the dummy value is drawn at RS4 and discarded, the
environment presents its byte at RS6, RS7 samples it, and the environment advances at RS8. -/
def State.readPin (s : State) (p : Progress) : Nat → State × Progress
  | 0 => (s.drive .rs1, p)
  | 1 => (s.drive .rs2, p)
  | 2 => (s.drive .rs3, p)
  | 3 => ({ s.drive (.rs4 (Config.draw8 s.draws)) with draws := s.draws + 1 }, { p with bus := Config.draw8 s.draws })
  | 4 => (s.drive .rs5, p)
  | 5 => ({ s.drive (.rs6 (s.ctrl.envRead s.draws)) with draws := s.draws + s.ctrl.envDraws },
          { p with bus := s.ctrl.envRead s.draws })
  | 6 => (s.drive .rs7, { p with v := p.bus })
  | 7 => ({ s.drive .rs8 with ctrl := s.ctrl.afterRead s.cfg }, p)
  | 8 => (s.drive .rs9, p)
  | _ => ((s.drive .rs10).emit (.read p.v), p)

/-- One pin step of a transaction. -/
def State.txnPin (s : State) (p : Progress) : Txn → State × Progress
  | .write k b => (s.writePin k b p.pin, p)
  | .writeBack mask => (s.writePin .data (p.v &&& mask) p.pin, p)
  | .read => s.readPin p p.pin
  | .pinSetup => (s.pinSetup, p)
  | .resAssert => (s.resAssert, p)
  | .resRelease => (s.resRelease, p)
  | .delay t => (s.delay t, p)

/-- The registers a request writes when its last transaction ends, and the return to IDLE; `v` is the byte its read cycle sampled. -/
def State.finish (s : State) (i : Instr) (v : Byte) : State :=
  match i with
  | .rdata => { s with rdout := v, rdoutSet := true }.complete
  | .gotoLine l => (s.gotoLineCursor (l.setWidth 3)).complete
  | .putChar c =>
    if wraps c s.col then ((s.setCursor (s.line + 1#3)).gotoLineCursor (s.line + 1#3)).complete
    else { s with col := s.col + 1#5, draws := s.draws + glyphDraws c }.complete
  | .init => s.initDone.complete
  | .wcmd _ | .wdata _ | .gotoPixel _ _ | .blit | .clearPixel _ _ | .clearScreen => s.complete

/-- A request at the start of its pin-level run: turned away by its own check before the first pin step (R201), or PHASE at its first
transaction. -/
def State.begin (s : State) (i : Instr) : State :=
  match s.check i with
  | .ok => { s with phase := .busy { req := i, index := 0, todo := s.txns i, pin := 0, bus := 0#8, v := 0#8 } }
  | code => s.raiseStatus code

/-- One pin step of the request in progress. "Each step goes to the next one. After W6 or RS10 it returns to IDLE, or to the first step of
the request's next cycle" (R120). At IDLE no pin step is performed. -/
def pinStep (s : State) : State :=
  match s.phase with
  | .idle => s
  | .busy p =>
    match p.todo with
    | [] => s.finish p.req p.v
    | t :: rest =>
      let r := s.txnPin p t
      if p.pin + 1 < t.pinSteps then { r.1 with phase := .busy { r.2 with pin := p.pin + 1 } }
      else
        match rest with
        | [] => r.1.finish p.req r.2.v
        | _ :: _ => { r.1 with phase := .busy { r.2 with index := p.index + 1, todo := rest, pin := 0 } }

/-- `n` pin steps. -/
def pinRun : Nat → State → State
  | 0, s => s
  | n + 1, s => pinRun n (pinStep s)

/-- One tick of the whole machine at the pin level: at IDLE with a request presented, the port accepts it; while READY = 0 "a request is not
accepted; it stays with the host" (R33) and the request in progress does its next pin step. -/
def tick (s : State) : State :=
  match s.phase with
  | .busy _ => pinStep s
  | .idle =>
    match s.host with
    | [] => s
    | r :: rest =>
      match decode r.word with
      | .ok i => (s.accept r rest).begin i
      | .error _ => (s.accept r rest).raiseStatus .illegalRequest

/-- `n` ticks. -/
def tickRun : Nat → State → State
  | 0, s => s
  | n + 1, s => tickRun n (tick s)

/-- PINS after each of the next `n` pin steps. -/
def pinHistory : Nat → State → List Pins
  | 0, _ => []
  | n + 1, s => (pinStep s).pins :: pinHistory n (pinStep s)

/-- How many pin steps a request takes from a state: none where its own check turns it away (R242). -/
def State.pinSteps (s : State) (i : Instr) : Nat :=
  match s.check i with
  | .ok => ((s.txns i).map Txn.pinSteps).sum
  | _ => 0

/-- How many bus transactions and lifecycle events a request appends to TRACE from a state (R242). -/
def State.transactions (s : State) (i : Instr) : Nat :=
  match s.check i with
  | .ok => (s.txns i).length
  | _ => 0

end Sys2Proof.Machine
end

