-- ==== Sys2Proof/Safety.lean ====
section
/-! DEFINITION. What a safe run is: every state at a request boundary meets the invariant below, and every step from one answers a next state.
Each clause names the rule that makes it a promise of the hardware. -/

namespace Sys2Proof.Machine

/-- PEND holds a command of the `CTRL_ARGC` table with at least one argument byte to come and the others received (20_memory.md R66, R67). -/
def Pending.wf (cfg : Config) (p : Pending) : Bool := 1 ≤ p.need && p.args.length + p.need == cfg.argc p.cmd

/-- The reference controller's fields are legal: MEM in canonical form, the column range in order and the pointer not past its end
(20_memory.md R66, R68, R72). -/
def Controller.wf (cfg : Config) (c : Controller) : Bool :=
  c.mem.wf && c.cstart ≤ c.cend && c.cptr ≤ c.cend && c.pend.all (Pending.wf cfg)

/-- The environment is legal: any specified reference state is. -/
def Ctrl.wf (cfg : Config) : Ctrl → Bool
  | .unspecified => true
  | .specified c => Controller.wf cfg c

/-- The invariant of a request boundary. -/
structure State.Inv (s : State) : Prop where
  /-- "0 <= COL <= 21" (42_text_cursor.md R159); LINE's range is its width. -/
  col : s.col.toNat ≤ Config.cap
  /-- PHASE "is IDLE at every step boundary" (10_state.md R30). -/
  idle : s.phase = .idle
  /-- "Between bus cycles, once INIT's GPIO setup has run", PINS is at the idle levels (10_state.md R29). -/
  pins : s.pinsSet = true → s.pins.idle = true
  /-- A specified reference state is a legal one. -/
  ctrl : s.ctrl.wf s.cfg = true
  /-- The reference state is specified only after an INIT that met its conditions: an attached reference controller, delays that suffice, a
  conforming script, and parameters under which R74 is derived (20_memory.md R74, 70_reset_and_hazards.md R232, R241). -/
  booted : s.ctrl ≠ .unspecified → s.pinsSet = true ∧ initBoots s.cfg = true

/-- The text cursor is unchanged. -/
def sameCursor (s t : State) : Prop := t.col = s.col ∧ t.line = s.line

/-- The read result is unchanged. -/
def sameRdout (s t : State) : Prop := t.rdout = s.rdout ∧ t.rdoutSet = s.rdoutSet

/-- The parameters and the host's side of the ports are unchanged. -/
def sameHostSide (s t : State) : Prop := t.cfg = s.cfg ∧ t.host = s.host ∧ t.bitmapPort = s.bitmapPort

/-- No byte of display memory is changed: what is still specified afterwards reads as before. -/
def sameDisplay (s t : State) : Prop := ∀ a v, t.displayByte a = some v → s.displayByte a = some v

/-- Whether a step answered a next state. -/
def completes : Host.Outcome State Fault Refusal → Bool
  | .next _ => true
  | .fault _ => false
  | .refused _ => false

/-- A list of requests run one after another, each to completion (10_state.md R33, 20_memory.md R62). -/
def execAll : List Instr → State → Host.Outcome State Fault Refusal
  | [], s => .next s
  | i :: rest, s =>
    match exec i s with
    | .next t => execAll rest t
    | .fault f => .fault f
    | .refused r => .refused r

end Sys2Proof.Machine
end

