-- ==== Sys2Proof/Certificates/Slice0/Obligations.lean ====
section
/-! DEFINITION. The statements for the provers, each formalising rules of spec/ (OBLIGATIONS.json names them). A statement about a free value
holds for every value of it. `c.pend = none` and `cfg.wellFormed` are the spec's own premises: the reference controller is waiting for no
argument (41_addressing.md R145), and the parameters meet the conditions of 00_scope.md R8 and 20_memory.md R76. -/

open Sys2Proof Sys2Proof.Machine

/-! ## Reset and the request port -/

/-- Block reset (10_state.md R36). RDOUT and PINS have no value: what the model holds in their place is not said here. -/
def Obligations.ResetPutsEveryRegisterAtItsValue : Prop :=
  State.reset.col = 0#5 ∧ State.reset.line = 0#3 ∧ State.reset.hostStatus = 0#2 ∧ State.reset.hostRdout = none ∧
  State.reset.pinsView = none ∧ State.reset.phase = .idle ∧ State.reset.ready = 1#1 ∧ State.reset.trace = [] ∧
  State.reset.ctrl = .unspecified

/-- A step runs the decoded request (R12, R33, R96): the port takes the host's next request, its frame stands on the bitmap port, and the step
is exec of the decoded request there.
How the host's requests stand in State is the model's choice (log 1, log 2). -/
def Obligations.StepRunsTheDecodedRequest : Prop :=
  ∀ (s : State) (r : HostRequest) (rest : List HostRequest) (i : Instr),
    s.phase = .idle → s.host = r :: rest → decode r.word = .ok i →
      step s = exec i { s with host := rest, bitmapPort := r.bitmap }

/-- With no request presented the block keeps all its state (60_exceptions.md R213).
That no request is presented shows as an empty list is the model's choice (log 2). -/
def Obligations.StepWaitsWhenNoRequestIsPresented : Prop :=
  ∀ s : State, s.phase = .idle → s.host = [] → step s = .next s ∧ tick s = s

/-- The request-port handshake (10_state.md R33).
The refusal's name and the host's list are the model's (log 1, log 2). -/
def Obligations.PortAcceptsOnlyWhenReady : Prop :=
  State.reset.ready = 1#1 ∧ (∀ s : State, s.ready = 1#1 ↔ s.phase = .idle) ∧
  (∀ s : State, s.ready = 0#1 → step s = .refused .portNotReady ∧ (tick s).host = s.host ∧ (tick s).bitmapPort = s.bitmapPort) ∧
  (∀ (s : State) (r : HostRequest) (rest : List HostRequest), s.ready = 1#1 → s.host = r :: rest → (tick s).host = rest)

/-- An illegal request word (60_exceptions.md R203) completes with ILLEGAL_REQUEST, and the requests with no operand to check complete with
OK.
That the port has taken the word is the model's reading (log 2, log 19). -/
def Obligations.IllegalWordsCompleteWithIllegalRequest : Prop :=
  (∀ w : Word, (∃ e, decode w = .error e) ↔
    (w.extractLsb' 4 4 ≠ 0#4 ∨ w.extractLsb' 24 8 ≠ 0#8 ∨ w.extractLsb' 0 4 = 0#4 ∨ 0xB#4 ≤ w.extractLsb' 0 4)) ∧
  (∀ (s : State) (r : HostRequest) (rest : List HostRequest) (e : DecodeError),
    s.phase = .idle → s.host = r :: rest → decode r.word = .error e →
      step s = .next { s with host := rest, bitmapPort := r.bitmap, status := .illegalRequest }) ∧
  (∀ (s : State) (i : Instr),
    ((∃ b, i = .wcmd b) ∨ (∃ b, i = .wdata b) ∨ i = .rdata ∨ (∃ c, i = .putChar c) ∨ i = .clearScreen ∨ i = .init) →
      ∃ t, exec i s = .next t ∧ t.status = .ok)

/-! ## Encodings -/

/-- Decode of encode is the request, with every operand at every value (30_encoding.md R91, R93, R103). -/
def Obligations.DecodeInvertsEncode : Prop :=
  ∀ i : Instr, i.wellFormed = true → decode (encode i) = .ok i

/-- The decoder looks at OP, RSV0, RSV1 and the operand fields the request uses, and at nothing else (30_encoding.md R94, R96): a word decodes
to a request exactly if its used bits are the request's encoding. -/
def Obligations.DecodeReadsExactlyTheUsedBits : Prop :=
  ∀ (w : Word) (i : Instr), decode w = .ok i ↔ w &&& i.usedBits = encode i

/-- A request word carried as bytes is little-endian, byte 0 is bits [7:0] (20_memory.md R56), and the bytes after it are left.
The decoder on bytes is the model's (log 21). -/
def Obligations.BytesAreReadLittleEndian : Prop :=
  (∀ b0 b1 b2 b3 : Byte, wordOfBytes b0 b1 b2 b3 =
    (b3.setWidth 32 <<< 24) ||| (b2.setWidth 32 <<< 16) ||| (b1.setWidth 32 <<< 8) ||| b0.setWidth 32) ∧
  (∀ (w : Word) (i : Instr) (rest : List Byte), decode w = .ok i → decodeBytes (bytesOfWord w ++ rest) = .ok (i, rest)) ∧
  (∀ (w : Word) (e : DecodeError) (rest : List Byte), decode w = .error e → decodeBytes (bytesOfWord w ++ rest) = .error e)

/-- Words of 95_test_vectors.md section 2.1. -/
def Obligations.SampleWordsDecodeAsTheSpecSays : Prop :=
  decode 0x0000AF01#32 = .ok (.wcmd 0xAF#8) ∧ decode 0x00FF5502#32 = .ok (.wdata 0x55#8) ∧
  decode 0x000D0A04#32 = .ok (.gotoPixel 10#8 13#8) ∧ decode 0x00004106#32 = .ok (.putChar 0x41#8) ∧
  decode 0x0000000A#32 = .ok .init ∧ decode 0x12345603#32 = .error .rsv1NotZero ∧ decode 0x00000013#32 = .error .rsv0NotZero

/-! ## Status -/

/-- The status of every request (60_exceptions.md R202): which code each raises and when, and the codes' numbers. -/
def Obligations.StatusIsTheTableOfCodes : Prop :=
  (Status.ok.code = 0#2 ∧ Status.outOfBounds.code = 1#2 ∧ Status.sizeMismatch.code = 2#2 ∧ Status.illegalRequest.code = 3#2) ∧
  ∀ (i : Instr) (s : State), ∃ t, exec i s = .next t ∧ t.status =
    match i with
    | .gotoPixel x y => if 128 ≤ x.toNat ∨ 64 ≤ y.toNat then .outOfBounds else .ok
    | .clearPixel x y => if 128 ≤ x.toNat ∨ 64 ≤ y.toNat then .outOfBounds else .ok
    | .gotoLine l => if 8 ≤ l.toNat then .outOfBounds else .ok
    | .blit => if s.bitmapPort.length ≠ 1024 then .sizeMismatch else .ok
    | .wcmd _ | .wdata _ | .rdata | .putChar _ | .clearScreen | .init => .ok

/-- `raise Status(code)` (60_exceptions.md R201): a request that completes with another status than OK, an illegal word among them, appends nothing
to TRACE, does no pin step, leaves the cursor, RDOUT, PINS and the controller as they were, and leaves the block at IDLE with READY = 1. -/
def Obligations.RaisedStatusChangesNothingElse : Prop :=
  (∀ (i : Instr) (s t : State), exec i s = .next t → t.status ≠ .ok →
    t = { s with status := t.status, phase := .idle } ∧ t.ready = 1#1 ∧ s.begin i = t ∧ s.pinSteps i = 0) ∧
  ∀ (s : State) (r : HostRequest) (rest : List HostRequest) (e : DecodeError),
    s.phase = .idle → s.host = r :: rest → decode r.word = .error e → ∃ t, step s = .next t ∧ tick s = t ∧
      t.status = .illegalRequest ∧ t.trace = s.trace ∧ sameCursor s t ∧ sameRdout s t ∧ t.pins = s.pins ∧ t.pinsSet = s.pinsSet ∧
      t.ctrl = s.ctrl ∧ t.phase = .idle ∧ t.ready = 1#1

/-! ## Whole-machine rules -/

/-- Every request completes and the block is back at IDLE with READY = 1 (70_reset_and_hazards.md R243, 10_state.md R30, R33).
That a step ends at IDLE is the model's reading of R12 (log 1). -/
def Obligations.EveryRequestRunsToCompletion : Prop :=
  ∀ (i : Instr) (s : State), ∃ t, exec i s = .next t ∧ t.phase = .idle ∧ t.ready = 1#1

/-- At the pin level no request can hang: from any state some number of pin steps leads to IDLE (70_reset_and_hazards.md R243).
The pin step of a lifecycle event is the model's choice (log 13). -/
def Obligations.PinStepsAlwaysReachIdle : Prop :=
  ∀ s : State, ∃ n, (pinRun n s).phase = .idle

/-- Only PUT_CHAR and, under GOTO_LINE_SETS_CURSOR, a valid GOTO_LINE write COL and LINE (42_text_cursor.md R160). -/
def Obligations.OnlyTextRequestsMoveTheCursor : Prop :=
  ∀ s t : State, step s = .next t → ¬ sameCursor s t →
    ∃ r rest, s.host = r :: rest ∧
      ((∃ c, decode r.word = .ok (.putChar c)) ∨
       (∃ l, decode r.word = .ok (.gotoLine l) ∧ l.toNat < 8 ∧ s.cfg.gotoLineSetsCursor = true))

/-- RDOUT (10_state.md R25): no value until the first RDATA, then the byte its read cycle captured; every other request leaves it. -/
def Obligations.OnlyRdataWritesRdout : Prop :=
  State.reset.hostRdout = none ∧
  (∀ s : State, ∃ t v, exec .rdata s = .next t ∧ t.trace = s.trace ++ [.read v] ∧ t.hostRdout = some v ∧ t.rdout = v) ∧
  (∀ (i : Instr) (s t : State), i ≠ .rdata → exec i s = .next t → sameRdout s t ∧ t.hostRdout = s.hostRdout)

/-- TRACE is append-only (10_state.md R32), and the parameters are read-only (20_memory.md R65). -/
def Obligations.StepsExtendTheTraceAndKeepTheParameters : Prop :=
  ∀ s t : State, step s = .next t → t.cfg = s.cfg ∧ ∃ es, t.trace = s.trace ++ es

/-- The controller receives the transactions in TRACE order, and each read returns what the environment holds at that point
(20_memory.md R62, R73). INIT is in `InitEmitsTheLifecycleScript` and `InitBootsTheReferenceController`. -/
def Obligations.ControllerReceivesTheTraceInOrder : Prop :=
  ∀ (i : Instr) (s : State), i ≠ .init →
    ∃ t es, exec i s = .next t ∧ t.trace = s.trace ++ es ∧ t.ctrl = es.foldl (Ctrl.onEvent s.cfg) s.ctrl ∧
      ∀ pre v post, es = pre ++ .read v :: post → (pre.foldl (Ctrl.onEvent s.cfg) s.ctrl) ≠ .unspecified →
        ∃ n, v = (pre.foldl (Ctrl.onEvent s.cfg) s.ctrl).envRead n

/-- The number of transactions of every request (70_reset_and_hazards.md R242), lifecycle events of INIT included.
Newline as 0x0A is presumed (log 14). -/
def Obligations.TransactionCountsAreTheTable : Prop :=
  ∀ (i : Instr) (s t : State), exec i s = .next t → t.trace.length = s.trace.length +
    match i with
    | .wcmd _ | .wdata _ | .rdata => 1
    | .gotoPixel x y => if x.toNat < 128 ∧ y.toNat < 64 then 4 else 0
    | .gotoLine l => if l.toNat < 8 then 4 else 0
    | .putChar c => if c = 0x0A#8 ∨ 21 ≤ s.col.toNat then 4 else 6
    | .blit => if s.bitmapPort.length = 1024 then 4 + 1024 else 0
    | .clearPixel x y => if x.toNat < 128 ∧ y.toNat < 64 then 10 else 0
    | .clearScreen => 4 + 1024
    | .init => 5 + (s.cfg.initScript.length + 4 + 1024)

/-- No request but RDATA and CLEAR_PIXEL reads the controller: a write cycle completes the same way whether or not a controller is attached and
whatever it holds (40_bus_protocol.md R128). -/
def Obligations.WritesNeverDependOnTheController : Prop :=
  ∀ (i : Instr) (s : State) (x : Ctrl), i ≠ .rdata → (∀ a b, i ≠ .clearPixel a b) →
    ∃ t y, exec i s = .next t ∧ exec i { s with ctrl := x } = .next { t with ctrl := y }

/-! ## Invariant -/

/-- Reset meets the invariant of a request boundary. -/
def Obligations.ResetMeetsTheInvariant : Prop := State.reset.Inv

/-- Every step keeps the invariant of a request boundary (42_text_cursor.md R159, 10_state.md R29, R30, 20_memory.md R66, R74).
Its last clause reads R74 as the model does (log 8), and the memory's form is the model's (log 10). -/
def Obligations.EveryStepKeepsTheInvariant : Prop :=
  ∀ s t : State, s.Inv → step s = .next t → t.Inv

/-- From a state that meets the invariant every step answers a next state: the block never faults and its port is ready
(60_exceptions.md R200, 10_state.md R30).
The one refusal is the model's (log 1). -/
def Obligations.StepsFromTheInvariantNeverStop : Prop :=
  ∀ s : State, s.Inv → ∃ t, step s = .next t

/-- Display memory is canonical: two memories that read alike at every display address are the same data.
The form is the model's (log 10). -/
def Obligations.CanonicalMemoriesThatReadAlikeAreEqual : Prop :=
  ∀ m n : Memory, m.wf = true → n.wf = true → (∀ a, a < 1024 → m.read a = n.read a) → m = n

/-! ## Pin level -/

/-- The two levels agree (00_scope.md R12): running a request's pin steps one by one gives the state its transaction-level meaning gives, the
number of pin steps is that of the table (6 for a write, 10 for a read, R242), and READY = 0 before the last.
Where in a cycle the environment acts is the model's choice (log 13). -/
def Obligations.PinLevelAgreesWithTheTransactionLevel : Prop :=
  ∀ (i : Instr) (s : State),
    exec i s = .next (pinRun (s.pinSteps i) (s.begin i)) ∧ ∀ m, m < s.pinSteps i → (pinRun m (s.begin i)).ready = 0#1

/-- The controller-side observer recognises exactly the transactions of TRACE from the pin steps (40_bus_protocol.md R127). -/
def Obligations.ObserverRecognisesTheTransactions : Prop :=
  ∀ (i : Instr) (s : State), s.pinsSet = true → s.pins.idle = true →
    ∃ t es, exec i s = .next t ∧ t.trace = s.trace ++ es ∧
      s.pins.recognise false (pinHistory (s.pinSteps i) (s.begin i)) = es.filter Event.isBus

/-- Settling and ordering (40_bus_protocol.md R126): along the pin steps of every request CS, DC, DOUT and DDIR settle before a strobe and hold
until it is deasserted, and WR and RD are never asserted together. -/
def Obligations.EveryRequestSettlesBeforeItsStrobes : Prop :=
  ∀ (i : Instr) (s : State), s.pinsSet = true → s.pins.idle = true →
    s.pins.settledAlong (pinHistory (s.pinSteps i) (s.begin i)) = true

/-- The electrical levels of idle lines (40_bus_protocol.md R129): CS, WR and RD stand at the level of a deasserted line, RES stands high, and DC
is high exactly for data. -/
def Obligations.IdleLinesStandDeasserted : Prop :=
  ∀ (p : Pins) (activeLow : Bool), p.idle = true →
    (p.levels activeLow).cs = activeLow ∧ (p.levels activeLow).wr = activeLow ∧ (p.levels activeLow).rd = activeLow ∧
    (p.levels activeLow).res = true ∧ (p.levels activeLow).dc = p.dc

/-! ## WCMD, WDATA, RDATA -/

/-- WCMD (40_bus_protocol.md R122) completes from every state: one `Cmd` with the byte unchanged, STATUS OK, the pins of a command
write cycle, and its frame. -/
def Obligations.WcmdSendsOneCommandByte : Prop :=
  ∀ (b : Byte) (s : State), ∃ t, exec (.wcmd b) s = .next t ∧
    t.trace = s.trace ++ [.cmd b] ∧ t.status = .ok ∧ t.phase = .idle ∧ t.ctrl = s.ctrl.onWrite s.cfg .cmd b ∧
    t.pinsView = s.pinsView.map (fun p => { p with cs := false, dc := false, wr := false, dout := b }) ∧
    sameCursor s t ∧ sameRdout s t ∧ sameHostSide s t ∧ sameDisplay s t ∧ t.pinsSet = s.pinsSet ∧ t.draws = s.draws

/-- WDATA (40_bus_protocol.md R123) completes from every state: one `Data`, STATUS OK, the pins of a data write cycle, and its frame; a display
byte outside the pointer reads as before. -/
def Obligations.WdataSendsOneDataByte : Prop :=
  ∀ (b : Byte) (s : State), ∃ t, exec (.wdata b) s = .next t ∧
    t.trace = s.trace ++ [.data b] ∧ t.status = .ok ∧ t.phase = .idle ∧
    t.pinsView = s.pinsView.map (fun p => { p with cs := false, dc := true, wr := false, dout := b }) ∧
    sameCursor s t ∧ sameRdout s t ∧ sameHostSide s t ∧ t.pinsSet = s.pinsSet ∧ t.draws = s.draws ∧
    ∀ c, s.ctrl = .specified c → ∀ a v, a ≠ c.addr → t.displayByte a = some v → c.mem.read a = v

/-- RDATA (40_bus_protocol.md R125) completes from every state: one `Read(v)`, RDOUT = v, STATUS OK, the pins of a read cycle, and its frame.
That DIN keeps the byte read is the model's choice (log 12). -/
def Obligations.RdataReturnsTheByteRead : Prop :=
  ∀ s : State, ∃ t v, exec .rdata s = .next t ∧
    t.trace = s.trace ++ [.read v] ∧ t.hostRdout = some v ∧ t.status = .ok ∧ t.phase = .idle ∧
    t.pinsView = s.pinsView.map (fun p => { p with cs := false, dc := true, rd := false, ddir := .output, din := v }) ∧
    sameCursor s t ∧ sameHostSide s t ∧ sameDisplay s t ∧ t.pinsSet = s.pinsSet ∧ s.draws < t.draws

/-- A data write at the reference controller (20_memory.md R71, R72): the byte at the pointer is written, every other byte stays, and the pointer
advances, past column CEND to the wrap column of the next page, modulo 8.
The page wrap 7 to 0 is presumed (log 16). -/
def Obligations.DataWriteStoresAtThePointerAndAdvances : Prop :=
  ∀ (b : Byte) (s : State) (c : Controller), s.ctrl = .specified c → c.pend = none → c.mem.wf = true →
    ∃ t c', exec (.wdata b) s = .next t ∧ t.ctrl = .specified c' ∧
      c'.mem.read (c.pptr.toNat * 128 + c.cptr.toNat) = b ∧
      (∀ a, a ≠ c.pptr.toNat * 128 + c.cptr.toNat → c'.mem.read a = c.mem.read a) ∧ c'.mem.wf = true ∧
      c'.cstart = c.cstart ∧ c'.cend = c.cend ∧ c'.pend = none ∧
      (if c.cptr = c.cend then
        c'.cptr = (if s.cfg.ctrlWrapCol = .zero then 0#7 else c.cstart) ∧ c'.pptr.toNat = (c.pptr.toNat + 1) % 8
       else c'.cptr = c.cptr + 1#7 ∧ c'.pptr = c.pptr)

/-- A read at the reference controller (20_memory.md R73): the byte at the pointer, and one advance; memory stays.
The page wrap 7 to 0 is presumed (log 16). -/
def Obligations.ReadReturnsTheByteAtThePointerAndAdvancesOnce : Prop :=
  ∀ (s : State) (c : Controller), s.ctrl = .specified c → c.pend = none →
    ∃ t c', exec .rdata s = .next t ∧ t.ctrl = .specified c' ∧
      t.hostRdout = some (c.mem.read (c.pptr.toNat * 128 + c.cptr.toNat)) ∧
      c'.mem = c.mem ∧ c'.cstart = c.cstart ∧ c'.cend = c.cend ∧ c'.pend = none ∧
      (if c.cptr = c.cend then
        c'.cptr = (if s.cfg.ctrlWrapCol = .zero then 0#7 else c.cstart) ∧ c'.pptr.toNat = (c.pptr.toNat + 1) % 8
       else c'.cptr = c.cptr + 1#7 ∧ c'.pptr = c.pptr)

/-- A data or read transaction while a command is pending leaves the reference state unspecified (20_memory.md R67), and the request completes
all the same (R128). -/
def Obligations.DataOrReadWhileAnArgumentIsPendingIsUnspecified : Prop :=
  ∀ (s : State) (c : Controller) (p : Pending), s.ctrl = .specified c → c.pend = some p →
    (∀ b, ∃ t, exec (.wdata b) s = .next t ∧ t.trace = s.trace ++ [.data b] ∧ t.ctrl = .unspecified) ∧
    ∃ t v, exec .rdata s = .next t ∧ t.trace = s.trace ++ [.read v] ∧ t.ctrl = .unspecified

/-- Once unspecified, the reference state stays so, and every later read is a draw (20_memory.md R75), until an INIT boots it (R74; that INIT ends
it is the model's reading, log 8). -/
def Obligations.AnUnspecifiedControllerStaysUnspecified : Prop :=
  ∀ s t : State, s.ctrl = .unspecified → step s = .next t →
    (t.ctrl = .unspecified ∨ ∃ r rest, s.host = r :: rest ∧ decode r.word = .ok .init) ∧
    (∀ r rest, s.host = r :: rest → decode r.word = .ok .rdata →
      ∃ n, s.draws ≤ n ∧ n < t.draws ∧ t.hostRdout = some (Config.draw8 n))

/-- Three raw commands set the column range (20_memory.md R67, R68, R75): a legal range moves the pointer to its start, and any other argument
leaves the reference state unspecified.
That the range moves CPTR is presumed (log 16). -/
def Obligations.RawSetColumnSetsTheRangeOrLosesTheState : Prop :=
  ∀ (s : State) (c : Controller) (lo hi : Byte), s.ctrl = .specified c → c.pend = none → s.cfg.setColumnTakesTwo = true →
    ∃ t, execAll [.wcmd s.cfg.cmdSetColumn, .wcmd lo, .wcmd hi] s = .next t ∧
      t.trace = s.trace ++ [.cmd s.cfg.cmdSetColumn, .cmd lo, .cmd hi] ∧
      (if lo.toNat ≤ hi.toNat ∧ hi.toNat ≤ 127 then
        ∃ c', t.ctrl = .specified c' ∧ c'.cptr.toNat = lo.toNat ∧ c'.cstart.toNat = lo.toNat ∧ c'.cend.toNat = hi.toNat ∧
          c'.pptr = c.pptr ∧ c'.mem = c.mem ∧ c'.pend = none
       else t.ctrl = .unspecified)

/-- A raw page-start command sets PPTR and leaves CPTR (20_memory.md R69); a command of no argument that is neither page start nor set column
changes nothing in the reference state (R70).
That page start is honoured in horizontal mode is presumed (log 16). -/
def Obligations.RawCommandsWithoutArguments : Prop :=
  ∀ (s : State) (c : Controller) (b : Byte), s.ctrl = .specified c → c.pend = none → s.cfg.argc b = 0 →
    ∃ t, exec (.wcmd b) s = .next t ∧
      (b &&& 0xF8#8 = s.cfg.cmdPageStart →
        ∃ c', t.ctrl = .specified c' ∧ c'.pptr.toNat = b.toNat % 8 ∧ c'.cptr = c.cptr ∧ c'.cstart = c.cstart ∧ c'.cend = c.cend ∧
          c'.mem = c.mem ∧ c'.pend = none) ∧
      (b &&& 0xF8#8 ≠ s.cfg.cmdPageStart → b ≠ s.cfg.cmdSetColumn → t.ctrl = .specified c)

/-! ## GOTO_PIXEL, GOTO_LINE -/

/-- GOTO_PIXEL (41_addressing.md R142): in range it completes from every state with the four commands of AddrSeq (30_encoding.md R100), and its
frame; out of range it changes STATUS alone. -/
def Obligations.GotoPixelIssuesTheAddressingSequence : Prop :=
  ∀ (x y : Byte) (s : State),
   (128 ≤ x.toNat ∨ 64 ≤ y.toNat → exec (.gotoPixel x y) s = .next { s with status := .outOfBounds, phase := .idle }) ∧
   (x.toNat < 128 → y.toNat < 64 → ∃ t, exec (.gotoPixel x y) s = .next t ∧
    t.trace = s.trace ++
      [.cmd s.cfg.cmdSetColumn, .cmd x, .cmd 127#8, .cmd (s.cfg.cmdPageStart ||| BitVec.ofNat 8 (y.toNat / 8))] ∧
    t.status = .ok ∧ t.phase = .idle ∧
    t.pinsView = s.pinsView.map (fun p => { p with
      cs := false, dc := false, wr := false, dout := s.cfg.cmdPageStart ||| BitVec.ofNat 8 (y.toNat / 8) }) ∧
    sameCursor s t ∧ sameRdout s t ∧ sameHostSide s t ∧ sameDisplay s t ∧ t.pinsSet = s.pinsSet ∧ t.draws = s.draws)

/-- GOTO_LINE (41_addressing.md R143): in range it completes from every state with the four commands, the text cursor exactly under
GOTO_LINE_SETS_CURSOR (R144), and its frame; out of range it changes STATUS alone. -/
def Obligations.GotoLineIssuesTheAddressingSequence : Prop :=
  ∀ (l : Byte) (s : State),
   (8 ≤ l.toNat → exec (.gotoLine l) s = .next { s with status := .outOfBounds, phase := .idle }) ∧
   (l.toNat < 8 → ∃ t, exec (.gotoLine l) s = .next t ∧
    t.trace = s.trace ++ [.cmd s.cfg.cmdSetColumn, .cmd 0#8, .cmd 127#8, .cmd (s.cfg.cmdPageStart ||| l)] ∧
    t.status = .ok ∧ t.phase = .idle ∧
    (if s.cfg.gotoLineSetsCursor then t.col = 0#5 ∧ t.line.toNat = l.toNat else sameCursor s t) ∧
    t.pinsView = s.pinsView.map (fun p => { p with
      cs := false, dc := false, wr := false, dout := s.cfg.cmdPageStart ||| l }) ∧
    sameRdout s t ∧ sameHostSide s t ∧ sameDisplay s t ∧ t.pinsSet = s.pinsSet ∧ t.draws = s.draws)

/-- GOTO_LINE equals GOTO_PIXEL(0, line*8) in trace and in every state, but for the cursor write under the parameter (41_addressing.md R143). -/
def Obligations.GotoLineEqualsGotoPixelAtTheLine : Prop :=
  ∀ (l : Byte) (s : State), l.toNat < 8 →
    ∃ t, exec (.gotoPixel 0#8 (BitVec.ofNat 8 (l.toNat * 8))) s = .next t ∧
      exec (.gotoLine l) s =
        .next (if s.cfg.gotoLineSetsCursor then { t with col := 0#5, line := BitVec.ofNat 3 l.toNat } else t)

/-- Pointer placement (41_addressing.md R145).
It rests on log 16. -/
def Obligations.ValidRepositionPlacesThePointer : Prop :=
  ∀ (s : State) (c : Controller), s.cfg.wellFormed = true → s.ctrl = .specified c → c.pend = none →
    (∀ x y : Byte, x.toNat < 128 → y.toNat < 64 → ∃ t c', exec (.gotoPixel x y) s = .next t ∧ t.ctrl = .specified c' ∧
      c'.cptr.toNat = x.toNat ∧ c'.pptr.toNat = y.toNat / 8 ∧ c'.cstart.toNat = x.toNat ∧ c'.cend.toNat = 127 ∧
      c'.mem = c.mem ∧ c'.pend = none) ∧
    (∀ l : Byte, l.toNat < 8 → ∃ t c', exec (.gotoLine l) s = .next t ∧ t.ctrl = .specified c' ∧
      c'.cptr.toNat = 0 ∧ c'.pptr.toNat = l.toNat ∧ c'.cstart.toNat = 0 ∧ c'.cend.toNat = 127 ∧
      c'.mem = c.mem ∧ c'.pend = none) ∧
    (∀ x y : Byte, 128 ≤ x.toNat ∨ 64 ≤ y.toNat → ∃ t, exec (.gotoPixel x y) s = .next t ∧ t.ctrl = s.ctrl) ∧
    (∀ l : Byte, 8 ≤ l.toNat → ∃ t, exec (.gotoLine l) s = .next t ∧ t.ctrl = s.ctrl)

/-! ## PUT_CHAR -/

/-- The wrap branch (42_text_cursor.md R151, R152, R155) completes from every state: COL = 0, LINE + 1 modulo 8, the addressing of the new line and
nothing rendered.
Newline as 0x0A is presumed (log 14). -/
def Obligations.PutCharWrapsAtNewlineOrFullLine : Prop :=
  ∀ (c : Byte) (s : State), c = 0x0A#8 ∨ 21 ≤ s.col.toNat → ∃ t, exec (.putChar c) s = .next t ∧
    t.col = 0#5 ∧ t.line.toNat = (s.line.toNat + 1) % 8 ∧
    t.trace = s.trace ++ [.cmd s.cfg.cmdSetColumn, .cmd 0#8, .cmd 127#8,
      .cmd (s.cfg.cmdPageStart ||| BitVec.ofNat 8 ((s.line.toNat + 1) % 8))] ∧
    t.status = .ok ∧ t.phase = .idle ∧
    t.pinsView = s.pinsView.map (fun p => { p with
      cs := false, dc := false, wr := false, dout := s.cfg.cmdPageStart ||| BitVec.ofNat 8 ((s.line.toNat + 1) % 8) }) ∧
    sameRdout s t ∧ sameHostSide s t ∧ sameDisplay s t ∧ t.pinsSet = s.pinsSet ∧ t.draws = s.draws

/-- The render branch (42_text_cursor.md R153, R154, R155) completes from every state: five glyph bytes, which are GLYPH's for a printable code and
open for any other, the spacer, COL + 1, no addressing.
Newline as 0x0A is presumed (log 14). -/
def Obligations.PutCharRendersFiveColumnsAndASpacer : Prop :=
  ∀ (c : Byte) (s : State), c ≠ 0x0A#8 → s.col.toNat < 21 → ∃ t g, exec (.putChar c) s = .next t ∧
    g.length = 5 ∧ (32 ≤ c.toNat → c.toNat ≤ 126 → (s.cfg.glyph.toList[c.toNat - 32]?).map Vector.toList = some g) ∧
    t.trace = s.trace ++ g.map .data ++ [.data 0#8] ∧ t.col.toNat = s.col.toNat + 1 ∧ t.line = s.line ∧
    t.ctrl = s.ctrl.onWrites s.cfg .data (g ++ [0#8]) ∧ t.status = .ok ∧ t.phase = .idle ∧
    t.pinsView = s.pinsView.map (fun p => { p with cs := false, dc := true, wr := false, dout := 0#8 }) ∧
    sameRdout s t ∧ sameHostSide s t ∧ t.pinsSet = s.pinsSet ∧ s.draws ≤ t.draws

/-- Glyph layout (20_memory.md R54, 42_text_cursor.md R158): where the six columns fit in the column range, glyph byte k lands k columns after the
pointer, the spacer after them, every other byte stays, and the pointer is six columns on.
Newline as 0x0A is presumed (log 14). -/
def Obligations.RenderedGlyphLandsAtThePointer : Prop :=
  ∀ (ch : Byte) (s : State) (c : Controller), ch ≠ 0x0A#8 → s.col.toNat < 21 → s.ctrl = .specified c → c.pend = none →
    c.mem.wf = true → c.cptr.toNat + 6 ≤ c.cend.toNat →
    ∃ t c' g, exec (.putChar ch) s = .next t ∧ t.ctrl = .specified c' ∧ t.trace = s.trace ++ (g ++ [0#8]).map .data ∧
      (∀ k, k < 6 → some (c'.mem.read (displayAddr c.pptr.toNat (c.cptr.toNat + k))) = (g ++ [0#8])[k]?) ∧
      (∀ a, (∀ k, k < 6 → a ≠ displayAddr c.pptr.toNat (c.cptr.toNat + k)) → c'.mem.read a = c.mem.read a) ∧
      c'.cptr.toNat = c.cptr.toNat + 6 ∧ c'.pptr = c.pptr

/-- Newline after a full line (42_text_cursor.md R157): at COL = 21 every character has the effect of newline.
Newline as 0x0A is presumed (log 14). -/
def Obligations.AFullLineTakesEveryCharacterAsNewline : Prop :=
  ∀ (c : Byte) (s : State), s.col = 21#5 →
    exec (.putChar c) s = exec (.putChar 0x0A#8) s ∧ ∃ t, exec (.putChar c) s = .next t ∧ t.col = 0#5 ∧ t.line = s.line + 1#3

/-- Drop on overflow (42_text_cursor.md R156): from COL = 0, 22 printable characters render the first 21, in 126 data bytes, drop the 22nd, and end
at COL = 0 of the next line, with the pointer at column 0 of its page.
The pointer's clause rests on log 16. -/
def Obligations.TheTwentySecondCharacterIsDropped : Prop :=
  ∀ (s : State) (cs : List Byte) (last : Byte), s.col = 0#5 → cs.length = 21 →
    (∀ c ∈ last :: cs, 32 ≤ c.toNat ∧ c.toNat ≤ 126) →
    ∃ t d, execAll (Instr.putString (cs ++ [last])) s = .next t ∧ d.length = 126 ∧
      d = cs.flatMap (fun c => (List.finRange 5).map (glyphByte s.cfg c) ++ [0#8]) ∧
      t.trace = s.trace ++ d.map .data ++ [.cmd s.cfg.cmdSetColumn, .cmd 0#8, .cmd 127#8,
        .cmd (s.cfg.cmdPageStart ||| BitVec.ofNat 8 ((s.line.toNat + 1) % 8))] ∧
      t.col = 0#5 ∧ t.line.toNat = (s.line.toNat + 1) % 8 ∧
      (s.cfg.wellFormed = true → ∀ c, s.ctrl = .specified c → c.pend = none →
        ∃ c', t.ctrl = .specified c' ∧ c'.cptr = 0#7 ∧ c'.pptr.toNat = (s.line.toNat + 1) % 8)

/-! ## BLIT, CLEAR_PIXEL, CLEAR_SCREEN -/

/-- BLIT of a 1024-byte frame (43_graphics.md R170) completes from every state: AddrSeq(0,0), the bytes in order, and its frame. -/
def Obligations.BlitSendsTheFrameInOrder : Prop :=
  ∀ s : State, s.bitmapPort.length = 1024 → ∃ t, exec .blit s = .next t ∧
    t.trace = s.trace ++ [.cmd s.cfg.cmdSetColumn, .cmd 0#8, .cmd 127#8, .cmd s.cfg.cmdPageStart] ++ s.bitmapPort.map .data ∧
    t.ctrl = (s.ctrl.onWrites s.cfg .cmd (addrSeqBytes s.cfg 0#8 0#8)).onWrites s.cfg .data s.bitmapPort ∧
    t.status = .ok ∧ t.phase = .idle ∧
    t.pinsView = s.pinsView.map (fun p => { p with
      cs := false, dc := true, wr := false, dout := (s.bitmapPort.getLast?).getD 0#8 }) ∧
    sameCursor s t ∧ sameRdout s t ∧ sameHostSide s t ∧ t.pinsSet = s.pinsSet ∧ t.draws = s.draws

/-- Bitmap layout (20_memory.md R55): buf[i] lands at page i div 128, column i mod 128, and the pointer ends at (0, 0) (43_graphics.md R170).
The page wrap 7 to 0 is presumed (log 16). -/
def Obligations.BlitLaysTheFrameOutByPage : Prop :=
  ∀ (s : State) (c : Controller), s.cfg.wellFormed = true → s.ctrl = .specified c → c.pend = none → c.mem.wf = true →
    s.bitmapPort.length = 1024 →
    ∃ t c', exec .blit s = .next t ∧ t.ctrl = .specified c' ∧
      (∀ i, i < 1024 → some (c'.mem.read (displayAddr (i / 128) (i % 128))) = s.bitmapPort[i]?) ∧ c'.mem.wf = true ∧
      c'.cptr = 0#7 ∧ c'.pptr = 0#3 ∧ c'.cstart = 0#7 ∧ c'.cend = 127#7 ∧ c'.pend = none

/-- CLEAR_PIXEL in range (43_graphics.md R171) completes from every state with its ten transactions, and its frame; RDOUT is not written.
That DIN keeps the byte read is the model's choice (log 12). -/
def Obligations.ClearPixelReadsRepositionsAndWritesBack : Prop :=
  ∀ (x y : Byte) (s : State), x.toNat < 128 → y.toNat < 64 → ∃ t v, exec (.clearPixel x y) s = .next t ∧
    t.trace = s.trace ++
      [.cmd s.cfg.cmdSetColumn, .cmd x, .cmd 127#8, .cmd (s.cfg.cmdPageStart ||| BitVec.ofNat 8 (y.toNat / 8)), .read v,
       .cmd s.cfg.cmdSetColumn, .cmd x, .cmd 127#8, .cmd (s.cfg.cmdPageStart ||| BitVec.ofNat 8 (y.toNat / 8)),
       .data (v &&& ~~~(1#8 <<< (y.toNat % 8)))] ∧
    t.ctrl = (((s.ctrl.onWrites s.cfg .cmd (addrSeqBytes s.cfg x (pageOf y))).afterRead s.cfg).onWrites s.cfg .cmd
      (addrSeqBytes s.cfg x (pageOf y))).onWrite s.cfg .data (v &&& clrMask (bitOf y)) ∧
    t.status = .ok ∧ t.phase = .idle ∧
    t.pinsView = s.pinsView.map (fun p => { p with
      cs := false, dc := true, wr := false, rd := false, ddir := .output, din := v, dout := v &&& clrMask (bitOf y) }) ∧
    sameCursor s t ∧ sameRdout s t ∧ sameHostSide s t ∧ t.pinsSet = s.pinsSet ∧ s.draws < t.draws

/-- CLEAR_PIXEL at the reference controller (43_graphics.md R171, R172): it clears bit y mod 8 of the byte at page y div 8, column x, and changes no
other bit and no other byte.
It rests on log 16. -/
def Obligations.ClearPixelClearsExactlyOneBit : Prop :=
  ∀ (x y : Byte) (s : State) (c : Controller), s.cfg.wellFormed = true → s.ctrl = .specified c → c.pend = none → c.mem.wf = true →
    x.toNat < 128 → y.toNat < 64 →
    ∃ t c', exec (.clearPixel x y) s = .next t ∧ t.ctrl = .specified c' ∧ c'.mem.wf = true ∧ c'.pend = none ∧
      (∀ j, j < 8 → (c'.mem.read (displayAddr (y.toNat / 8) x.toNat)).getLsbD j =
        if j = y.toNat % 8 then false else (c.mem.read (displayAddr (y.toNat / 8) x.toNat)).getLsbD j) ∧
      ∀ a, a ≠ displayAddr (y.toNat / 8) x.toNat → c'.mem.read a = c.mem.read a

/-- The bit-clear mask (43_graphics.md R172). -/
def Obligations.ClearMaskClearsItsBitAlone : Prop :=
  ((List.range 8).map clrMask = [0xFE#8, 0xFD#8, 0xFB#8, 0xF7#8, 0xEF#8, 0xDF#8, 0xBF#8, 0x7F#8]) ∧
  ∀ (v : Byte) (k j : Nat), k < 8 → j < 8 → (v &&& clrMask k).getLsbD j = if j = k then false else v.getLsbD j

/-- CLEAR_SCREEN (43_graphics.md R173) completes from every state: AddrSeq(0,0), 1024 zero bytes, and its frame; the text cursor stays. -/
def Obligations.ClearScreenSendsZeroes : Prop :=
  ∀ s : State, ∃ t, exec .clearScreen s = .next t ∧
    t.trace = s.trace ++ [.cmd s.cfg.cmdSetColumn, .cmd 0#8, .cmd 127#8, .cmd s.cfg.cmdPageStart] ++
      List.replicate 1024 (.data 0#8) ∧
    t.ctrl = (s.ctrl.onWrites s.cfg .cmd (addrSeqBytes s.cfg 0#8 0#8)).onWrites s.cfg .data (List.replicate 1024 0#8) ∧
    t.status = .ok ∧ t.phase = .idle ∧
    t.pinsView = s.pinsView.map (fun p => { p with cs := false, dc := true, wr := false, dout := 0#8 }) ∧
    sameCursor s t ∧ sameRdout s t ∧ sameHostSide s t ∧ t.pinsSet = s.pinsSet ∧ t.draws = s.draws

/-- CLEAR_SCREEN at the reference controller (43_graphics.md R173): every display byte is 0x00 and the pointer is at (0, 0).
The page wrap 7 to 0 is presumed (log 16). -/
def Obligations.ClearScreenZeroesTheDisplay : Prop :=
  ∀ (s : State) (c : Controller), s.cfg.wellFormed = true → s.ctrl = .specified c → c.pend = none → c.mem.wf = true →
    ∃ t c', exec .clearScreen s = .next t ∧ t.ctrl = .specified c' ∧ (∀ a, a < 1024 → c'.mem.read a = 0#8) ∧ c'.mem.wf = true ∧
      c'.cptr = 0#7 ∧ c'.pptr = 0#3 ∧ c'.cstart = 0#7 ∧ c'.cend = 127#7 ∧ c'.pend = none

/-- Round trip (70_reset_and_hazards.md R235): a byte written at a position and read back after a reposition to it is the byte.
It rests on log 16. -/
def Obligations.WriteRepositionReadReturnsTheByte : Prop :=
  ∀ (x y b : Byte) (s : State) (c : Controller), s.cfg.wellFormed = true → s.ctrl = .specified c → c.pend = none → c.mem.wf = true →
    x.toNat < 128 → y.toNat < 64 →
    ∃ t, execAll [.gotoPixel x y, .wdata b, .gotoPixel x y, .rdata] s = .next t ∧ t.hostRdout = some b

/-! ## INIT -/

/-- INIT (44_lifecycle.md R190 to R192) completes from every state: its trace, the pins at their idle levels with RES released, and its frame. -/
def Obligations.InitEmitsTheLifecycleScript : Prop :=
  ∀ s : State, ∃ t, exec .init s = .next t ∧
    t.trace = s.trace ++ [.pinSetup, .resAssert, .delay s.cfg.tResLow, .resRelease, .delay s.cfg.tResRecover] ++
      s.cfg.initScript.map .cmd ++ [.cmd s.cfg.cmdSetColumn, .cmd 0#8, .cmd 127#8, .cmd s.cfg.cmdPageStart] ++
      List.replicate 1024 (.data 0#8) ∧
    t.status = .ok ∧ t.phase = .idle ∧ (∃ d, t.pinsView = some ⟨false, true, false, false, false, 0#8, .output, d⟩) ∧
    sameCursor s t ∧ sameRdout s t ∧ sameHostSide s t ∧ t.draws = s.draws

/-- After INIT the reference controller is in the state of 20_memory.md R74 if the script conforms and the delays are at least what the
controller needs, and unspecified if one of them is not (70_reset_and_hazards.md R232, R241).
When the state is specified again, that the parameters must be well-formed and the script's arguments in range, which scripts conform, and
that what the controller needs is a parameter, are the model's readings (log 6, log 8, log 9, log 23). -/
def Obligations.InitBootsTheReferenceController : Prop :=
  ∀ s : State, ∃ t, exec .init s = .next t ∧
    (s.cfg.attached = true → s.cfg.resLowNeeded ≤ s.cfg.tResLow → s.cfg.resRecoverNeeded ≤ s.cfg.tResRecover →
      scriptConforms s.cfg = true → s.cfg.wellFormed = true → scriptInRange s.cfg = true →
      ∃ c, t.ctrl = .specified c ∧ (∀ a, a < 1024 → c.mem.read a = 0#8) ∧ c.cptr = 0#7 ∧ c.pptr = 0#3 ∧ c.cstart = 0#7 ∧
        c.cend = 127#7 ∧ c.pend = none) ∧
    (s.cfg.attached = false ∨ s.cfg.tResLow < s.cfg.resLowNeeded ∨ s.cfg.tResRecover < s.cfg.resRecoverNeeded ∨
      scriptConforms s.cfg = false ∨ s.cfg.wellFormed = false ∨ scriptInRange s.cfg = false → t.ctrl = .unspecified)

/-- The state of R74 is the one its transactions derive (20_memory.md R74, from R68, R69, R72 and 43_graphics.md R173): under the command bytes and
the `CTRL_ARGC` table of R76, a conforming script, AddrSeq(0,0) and 1024 zero bytes take every controller with no command pending and its memory in canonical form (the
model's form, log 10) there.
Which scripts conform is the model's choice (log 9), and the table is presumed (log 16, log 17). -/
def Obligations.InitTransactionsDeriveTheBootState : Prop :=
  ∀ (cfg : Config) (c : Controller), cfg.cmdSetColumn = 0x21#8 → cfg.cmdPageStart = 0xB0#8 → cfg.ctrlArgc = Config.defaultArgc →
    scriptConforms cfg = true → c.pend = none → c.mem.wf = true →
    Ctrl.onWrites cfg .data (List.replicate 1024 0#8)
      (Ctrl.onWrites cfg .cmd (cfg.initScript ++ addrSeqBytes cfg 0#8 0#8) (.specified c)) = .specified Controller.afterInit

/-- Where the model boots the reference controller, the transactions of INIT do derive the state of R74 (20_memory.md R74, from R67 to R69, R72),
from every controller with no command pending and its memory in canonical form, under every parameter record that meets the conditions.
The conditions are the model's (log 8, log 9), the memory's form too (log 10), and it rests on log 16. -/
def Obligations.InitBootsOnlyWhereItsTransactionsDo : Prop :=
  ∀ (cfg : Config) (c : Controller), initBoots cfg = true → c.pend = none → c.mem.wf = true →
    Ctrl.onWrites cfg .data (List.replicate 1024 0#8)
      (Ctrl.onWrites cfg .cmd (cfg.initScript ++ addrSeqBytes cfg 0#8 0#8) (.specified c)) = .specified Controller.afterInit

/-! ## Program text -/

/-- A program text stands for encoded requests (30_encoding.md R103): every request of an assembled program is the encoding of the request its
word decodes to, and only a BLIT brings a frame; a BLIT line followed by its bitmap line is that one request with those bytes.
The text form is the model's where R103 leaves it open (log 20). -/
def Obligations.ProgramsAssembleToEncodedRequests : Prop :=
  (∀ (text : List Char) (rs : List HostRequest), assembleProgram text = some rs →
    ∀ r ∈ rs, ∃ i, decode r.word = .ok i ∧ r.word = encode i ∧ (i ≠ .blit → r.bitmap = [])) ∧
  ∀ (buf : List Char) (rest : List (List Char)) (b : List Byte) (rs : List HostRequest),
    bitmapLine buf = some b → assembleLines rest = some rs →
      assembleLines ("BLIT".toList :: buf :: rest) = some ({ word := 0x00000007#32, bitmap := b } :: rs)
end

