-- ==== Sys2Proof/Laws/Assembler.lean ====
section
/-! SUPPORT. What a program's lines stand for, one line at a time (30_encoding.md R103). -/

namespace Sys2Proof.Machine

@[simp] theorem assembleLines_nil : assembleLines [] = some [] := rfl

/-- A blank line stands for nothing. -/
theorem assembleLines_blank {line : List Char} (rest : List (List Char)) (h : trim line = []) :
    assembleLines (line :: rest) = assembleLines rest := by
  cases rest <;> simp [assembleLines, h]

/-- A BLIT line takes its bitmap from the line after it, and stops the program where there is none. -/
theorem assembleLines_blit {line : List Char} (h : trim line ≠ []) (hb : assemble line = some [.blit]) :
    assembleLines [line] = none ∧ ∀ buf rest, assembleLines (line :: buf :: rest) =
      (bitmapLine buf).bind fun b => (assembleLines rest).map (requestOf b .blit :: ·) := by
  exact ⟨by simp [assembleLines, h, hb], fun buf rest => by simp [assembleLines, h, hb]⟩

/-- Any other line stands for its requests, none of which brings a frame. -/
theorem assembleLines_plain {line : List Char} (rest : List (List Char)) (h : trim line ≠ []) (hb : assemble line ≠ some [.blit]) :
    assembleLines (line :: rest) =
      (assemble line).bind fun is => (assembleLines rest).map (is.map (requestOf []) ++ ·) := by
  cases rest <;> simp [assembleLines, h, hb]

end Sys2Proof.Machine
end

