-- ==== Sys2Proof/Laws/Memory.lean ====
section
/-! SUPPORT. Display memory: read after write, writes leave other addresses alone, and every write keeps the canonical form. -/

namespace Sys2Proof.Machine

theorem Memory.risingFrom_mono {lo lo' : Nat} (h : lo' ≤ lo) : ∀ {m : Memory}, m.risingFrom lo = true → m.risingFrom lo' = true
  | [], _ => rfl
  | (k, v) :: rest, hm => by
    simp only [Memory.risingFrom, Bool.and_eq_true, decide_eq_true_eq] at hm ⊢
    exact ⟨by omega, hm.2⟩

/-- An address below every listed one reads as an unlisted address. -/
theorem Memory.read_below {a lo : Nat} (h : a < lo) : ∀ {m : Memory}, m.risingFrom lo = true → m.read a = Memory.unlisted
  | [], _ => rfl
  | (k, v) :: rest, hm => by
    simp only [Memory.risingFrom, Bool.and_eq_true, decide_eq_true_eq] at hm
    have hne : a ≠ k := by omega
    simp only [Memory.read, hne, if_false]
    exact Memory.read_below (lo := k + 1) (by omega) hm.2

theorem Memory.read_write_other {a a' : Nat} (h : a' ≠ a) (b : Byte) : ∀ m : Memory, (m.write a b).read a' = m.read a'
  | [] => by
    simp only [Memory.write]
    split <;> simp [Memory.read, h]
  | (k, v) :: rest => by
    have ih := Memory.read_write_other h b rest
    simp only [Memory.write]
    split
    · split <;> simp [Memory.read, h]
    · split
      · next hk =>
        subst hk
        split <;> simp [Memory.read, h]
      · simp only [Memory.read, ih]

theorem Memory.read_write_same_rising (a : Nat) (b : Byte) :
    ∀ {m : Memory} {lo : Nat}, m.risingFrom lo = true → (m.write a b).read a = b
  | [], _, _ => by
    simp only [Memory.write]
    split <;> simp_all [Memory.read]
  | (k, v) :: rest, lo, hm => by
    have hr := hm
    simp only [Memory.risingFrom, Bool.and_eq_true, decide_eq_true_eq] at hm
    simp only [Memory.write]
    split
    · next hlt =>
      split
      · next hb =>
        rw [hb]
        refine Memory.read_below (lo := k) hlt ?_
        simp only [Memory.risingFrom, Bool.and_eq_true, decide_eq_true_eq]
        exact ⟨Nat.le_refl k, hm.2⟩
      · simp [Memory.read]
    · split
      · next hk =>
        subst hk
        split
        · next hb => rw [hb]; exact Memory.read_below (lo := a + 1) (by omega) hm.2
        · simp [Memory.read]
      · next hne =>
        simp only [Memory.read, hne, if_false]
        exact Memory.read_write_same_rising a b hm.2

theorem Memory.rising_write (a : Nat) (b : Byte) :
    ∀ {m : Memory} {lo : Nat}, lo ≤ a → m.risingFrom lo = true → (m.write a b).risingFrom lo = true
  | [], lo, ha, _ => by
    simp only [Memory.write]
    split <;> simp [Memory.risingFrom, ha]
  | (k, v) :: rest, lo, ha, hm => by
    have hr := hm
    simp only [Memory.risingFrom, Bool.and_eq_true, decide_eq_true_eq] at hm
    simp only [Memory.write]
    split
    · next hlt =>
      split
      · exact hr
      · simp only [Memory.risingFrom, Bool.and_eq_true, decide_eq_true_eq]
        exact ⟨ha, by omega, hm.2⟩
    · split
      · split
        · exact Memory.risingFrom_mono (by omega) hm.2
        · simp only [Memory.risingFrom, Bool.and_eq_true, decide_eq_true_eq]
          next hk _ => subst hk; exact ⟨ha, hm.2⟩
      · simp only [Memory.risingFrom, Bool.and_eq_true, decide_eq_true_eq]
        exact ⟨hm.1, Memory.rising_write a b (by omega) hm.2⟩

theorem Memory.entries_write {a : Nat} (ha : a < Config.displayBytes) (b : Byte) :
    ∀ {m : Memory}, m.all Memory.entryOK = true → (m.write a b).all Memory.entryOK = true
  | [], _ => by
    simp only [Memory.write]
    split <;> simp_all [Memory.entryOK]
  | (k, v) :: rest, hm => by
    simp only [List.all_cons, Bool.and_eq_true] at hm
    have hb (hne : ¬b = Memory.unlisted) : Memory.entryOK (a, b) = true := by simp [Memory.entryOK, ha, hne]
    simp only [Memory.write]
    split
    · split
      · simp only [List.all_cons, Bool.and_eq_true]; exact hm
      · next hne => simp only [List.all_cons, Bool.and_eq_true]; exact ⟨hb hne, hm⟩
    · split
      · split
        · exact hm.2
        · next hne => simp only [List.all_cons, Bool.and_eq_true]; exact ⟨hb hne, hm.2⟩
      · simp only [List.all_cons, Bool.and_eq_true]
        exact ⟨hm.1, Memory.entries_write ha b hm.2⟩

/-- Every write inside the display keeps the canonical form. -/
theorem Memory.wf_write {m : Memory} {a : Nat} (ha : a < Config.displayBytes) (b : Byte) (hm : m.wf = true) :
    (m.write a b).wf = true := by
  simp only [Memory.wf, Bool.and_eq_true] at hm ⊢
  exact ⟨Memory.rising_write a b (Nat.zero_le a) hm.1, Memory.entries_write ha b hm.2⟩

theorem Memory.read_write_same {m : Memory} (a : Nat) (b : Byte) (hm : m.wf = true) : (m.write a b).read a = b := by
  simp only [Memory.wf, Bool.and_eq_true] at hm
  exact Memory.read_write_same_rising a b hm.1

/-- The pointer always stands inside the display. -/
theorem Controller.addr_lt (c : Controller) : c.addr < Config.displayBytes := by
  have h1 := c.pptr.isLt
  have h2 := c.cptr.isLt
  simp only [Controller.addr, displayAddr, Config.displayBytes]
  omega

end Sys2Proof.Machine
end

