-- ==== Sys2Proof/Laws/Controller.lean ====
section
/-! SUPPORT. The reference controller: what each transaction can do to it, once per transition, and that each keeps it legal. -/

namespace Sys2Proof.Machine

variable (cfg : Config)

@[simp] theorem Controller.advance_mem (c : Controller) : (Controller.advance cfg c).mem = c.mem := by
  unfold Controller.advance; split <;> rfl
@[simp] theorem Controller.advance_cstart (c : Controller) : (Controller.advance cfg c).cstart = c.cstart := by
  unfold Controller.advance; split <;> rfl
@[simp] theorem Controller.advance_cend (c : Controller) : (Controller.advance cfg c).cend = c.cend := by
  unfold Controller.advance; split <;> rfl
@[simp] theorem Controller.advance_pend (c : Controller) : (Controller.advance cfg c).pend = c.pend := by
  unfold Controller.advance; split <;> rfl

/-- `wf` as the four facts it stands for. -/
theorem Controller.wf_iff {c : Controller} :
    Controller.wf cfg c = true ↔
      c.mem.wf = true ∧ c.cstart ≤ c.cend ∧ c.cptr ≤ c.cend ∧ c.pend.all (Pending.wf cfg) = true := by
  simp [Controller.wf, and_assoc]

theorem Controller.wf_advance {c : Controller} (h : Controller.wf cfg c = true) : Controller.wf cfg (Controller.advance cfg c) = true := by
  obtain ⟨hm, hr, hp, hq⟩ := (Controller.wf_iff cfg).1 h
  refine (Controller.wf_iff cfg).2 ⟨by simpa using hm, by simpa using hr, ?_, by simpa using hq⟩
  unfold Controller.advance
  split
  · cases cfg.ctrlWrapCol
    · simp [BitVec.le_def]
    · exact hr
  · simp only
    bv_omega

/-- What framing one command byte does (R67): PEND counts on, or a command is complete and PEND is none. -/
theorem frame_cases (pend : Option Pending) (b : Byte) :
    (∃ p, pend = some p ∧ p.need ≤ 1 ∧ frame cfg pend b = (none, some (p.cmd, p.args ++ [b]))) ∨
    (∃ p, pend = some p ∧ 1 < p.need ∧
      frame cfg pend b = (some { p with need := p.need - 1, args := p.args ++ [b] }, none)) ∨
    (pend = none ∧ cfg.argc b = 0 ∧ frame cfg pend b = (none, some (b, []))) ∨
    (pend = none ∧ cfg.argc b ≠ 0 ∧ frame cfg pend b = (some { cmd := b, need := cfg.argc b, args := [] }, none)) := by
  cases pend with
  | none =>
    by_cases h : cfg.argc b = 0
    · exact .inr (.inr (.inl ⟨rfl, h, by simp [frame, h]⟩))
    · exact .inr (.inr (.inr ⟨rfl, h, by simp [frame, h]⟩))
  | some p =>
    by_cases h : p.need ≤ 1
    · exact .inl ⟨p, rfl, h, by simp [frame, h]⟩
    · exact .inr (.inl ⟨p, rfl, by omega, by simp [frame, h]⟩)

theorem frame_wf {pend : Option Pending} (b : Byte) (h : pend.all (Pending.wf cfg) = true) :
    (frame cfg pend b).1.all (Pending.wf cfg) = true := by
  rcases frame_cases cfg pend b with ⟨p, rfl, _, e⟩ | ⟨p, rfl, hn, e⟩ | ⟨rfl, _, e⟩ | ⟨rfl, hn, e⟩
  · rw [e]; rfl
  · rw [e]
    simp only [Option.all_some, Pending.wf, Bool.and_eq_true, decide_eq_true_eq, beq_iff_eq] at h ⊢
    refine ⟨by omega, ?_⟩
    rw [List.length_append, List.length_singleton, ← h.2]
    omega
  · rw [e]; rfl
  · rw [e]
    simp only [Option.all_some, Pending.wf, Bool.and_eq_true, decide_eq_true_eq, beq_iff_eq]
    exact ⟨by omega, by simp⟩

/-- What executing a command does (R68 to R70): a column range is set, a page is set, nothing changes, or the state is unspecified. -/
theorem execute_cases (c : Controller) (cmd : Byte) (args : List Byte) :
    (∃ s e, args = [s, e] ∧ cmd = cfg.cmdSetColumn ∧ s.toNat ≤ e.toNat ∧ e.toNat ≤ 127 ∧
      Controller.execute cfg c cmd args
        = .specified { c with cstart := s.setWidth 7, cend := e.setWidth 7, cptr := s.setWidth 7 }) ∨
    (args = [] ∧ isPageStart cfg cmd = true ∧ Controller.execute cfg c cmd args = .specified { c with pptr := cmd.setWidth 3 }) ∨
    Controller.execute cfg c cmd args = .specified c ∨
    Controller.execute cfg c cmd args = .unspecified := by
  unfold Controller.execute Controller.setColumn
  split
  · split
    · next h => exact .inr (.inl ⟨rfl, h, rfl⟩)
    · split
      · exact .inr (.inr (.inr rfl))
      · exact .inr (.inr (.inl rfl))
  · next s e =>
    split
    · next h =>
      split
      · next hb => exact .inl ⟨s, e, rfl, h, hb.1, hb.2, rfl⟩
      · exact .inr (.inr (.inr rfl))
    · split
      · exact .inr (.inr (.inr rfl))
      · exact .inr (.inr (.inl rfl))
  · split
    · exact .inr (.inr (.inr rfl))
    · exact .inr (.inr (.inl rfl))

theorem Controller.wf_execute {c : Controller} (cmd : Byte) (args : List Byte) (h : Controller.wf cfg c = true) :
    (Controller.execute cfg c cmd args).wf cfg = true := by
  obtain ⟨hm, hr, hp, hq⟩ := (Controller.wf_iff cfg).1 h
  rcases execute_cases cfg c cmd args with ⟨s, e, -, -, h1, h2, eq⟩ | ⟨-, -, eq⟩ | eq | eq
  · rw [eq]
    have hs : s.setWidth 7 ≤ e.setWidth 7 := by
      simp only [BitVec.le_def, BitVec.toNat_setWidth]
      omega
    exact (Controller.wf_iff cfg).2 ⟨hm, hs, hs, hq⟩
  · rw [eq]; exact (Controller.wf_iff cfg).2 ⟨hm, hr, hp, hq⟩
  · rw [eq]; exact h
  · rw [eq]; rfl

theorem Controller.wf_onCmd {c : Controller} (b : Byte) (h : Controller.wf cfg c = true) : (Controller.onCmd cfg c b).wf cfg = true := by
  obtain ⟨hm, hr, hp, hq⟩ := (Controller.wf_iff cfg).1 h
  have hf := frame_wf cfg b hq
  unfold Controller.onCmd
  split
  · next pend he =>
    rw [he] at hf
    exact (Controller.wf_iff cfg).2 ⟨hm, hr, hp, hf⟩
  · next pend cmd args he =>
    rw [he] at hf
    exact Controller.wf_execute cfg cmd args ((Controller.wf_iff cfg).2 ⟨hm, hr, hp, hf⟩)

theorem Controller.wf_onData {c : Controller} (b : Byte) (h : Controller.wf cfg c = true) : (Controller.onData cfg c b).wf cfg = true := by
  unfold Controller.onData
  split
  · rfl
  · obtain ⟨hm, hr, hp, hq⟩ := (Controller.wf_iff cfg).1 h
    exact Controller.wf_advance cfg ((Controller.wf_iff cfg).2 ⟨Memory.wf_write c.addr_lt b hm, hr, hp, hq⟩)

/-- Every write transaction keeps the environment legal. -/
theorem Ctrl.wf_onWrite {x : Ctrl} (k : BusKind) (b : Byte) (h : x.wf cfg = true) : (x.onWrite cfg k b).wf cfg = true := by
  cases x with
  | unspecified => rfl
  | specified c =>
    cases k
    · exact Controller.wf_onCmd cfg b h
    · exact Controller.wf_onData cfg b h

/-- Every read transaction keeps the environment legal. -/
theorem Ctrl.wf_afterRead {x : Ctrl} (h : x.wf cfg = true) : (x.afterRead cfg).wf cfg = true := by
  cases x with
  | unspecified => rfl
  | specified c =>
    cases hp : c.pend with
    | some p => simp [Ctrl.afterRead, hp, Ctrl.wf]
    | none => simpa [Ctrl.afterRead, hp, Ctrl.wf] using Controller.wf_advance cfg h

theorem Controller.wf_afterInit : Controller.wf cfg Controller.afterInit = true := by rfl

/-- What an INIT must meet to boot the reference controller, condition by condition (R74, R193, R241). -/
theorem initBoots_iff :
    initBoots cfg = true ↔ cfg.attached = true ∧ cfg.resLowNeeded ≤ cfg.tResLow ∧ cfg.resRecoverNeeded ≤ cfg.tResRecover ∧
      scriptConforms cfg = true ∧ cfg.wellFormed = true ∧ scriptInRange cfg = true := by
  simp [initBoots, Config.delaysSuffice, and_assoc]

@[simp] theorem Ctrl.whenInitCompletes_booted (h : initBoots cfg = true) :
    Ctrl.whenInitCompletes cfg = .specified Controller.afterInit := by simp [Ctrl.whenInitCompletes, h]

@[simp] theorem Ctrl.whenInitCompletes_unspecified (h : initBoots cfg = false) : Ctrl.whenInitCompletes cfg = .unspecified := by
  simp [Ctrl.whenInitCompletes, h]

theorem Ctrl.wf_whenInitCompletes : (Ctrl.whenInitCompletes cfg).wf cfg = true := by
  unfold Ctrl.whenInitCompletes
  split
  · exact Controller.wf_afterInit cfg
  · rfl

@[simp] theorem Ctrl.onWrite_unspecified (k : BusKind) (b : Byte) : Ctrl.onWrite cfg k b .unspecified = .unspecified := rfl

@[simp] theorem Ctrl.afterRead_unspecified : Ctrl.afterRead cfg .unspecified = .unspecified := rfl

/-- A data byte at a controller with no command pending (R71). -/
theorem Ctrl.onWrite_data {c : Controller} (b : Byte) (h : c.pend = none) :
    Ctrl.onWrite cfg .data b (.specified c) = .specified (Controller.advance cfg { c with mem := c.mem.write c.addr b }) := by
  simp [Ctrl.onWrite, Controller.onData, h]

/-- A command byte that takes no argument, at a controller with no command pending (R67). -/
theorem Ctrl.onWrite_bare {c : Controller} {b : Byte} (h : c.pend = none) (ha : cfg.argc b = 0) :
    Ctrl.onWrite cfg .cmd b (.specified c) = Controller.execute cfg c b [] := by
  cases c
  simp_all [Ctrl.onWrite, Controller.onCmd, frame]

/-- A read at a controller with no command pending (R73). -/
theorem Ctrl.afterRead_specified {c : Controller} (h : c.pend = none) :
    Ctrl.afterRead cfg (.specified c) = .specified (Controller.advance cfg c) := by
  simp [Ctrl.afterRead, h]

theorem Ctrl.envRead_specified {c : Controller} (n : Nat) (h : c.pend = none) : Ctrl.envRead n (.specified c) = c.mem.read c.addr := by
  simp [Ctrl.envRead, h]

end Sys2Proof.Machine
end

