-- ==== Sys2Proof/Laws/State.lean ====
section
/-! SUPPORT. One lemma per field per update of State: what each shared operation of Machine/Ops.lean, Port.lean and Sequencer.lean leaves in
each field. No later proof unfolds a record update. -/

namespace Sys2Proof.Machine

variable (s : State)


/-! ### emit -/

@[simp] theorem State.emit_col (e : Event) : (s.emit e).col = s.col := rfl
@[simp] theorem State.emit_line (e : Event) : (s.emit e).line = s.line := rfl
@[simp] theorem State.emit_status (e : Event) : (s.emit e).status = s.status := rfl
@[simp] theorem State.emit_rdout (e : Event) : (s.emit e).rdout = s.rdout := rfl
@[simp] theorem State.emit_rdoutSet (e : Event) : (s.emit e).rdoutSet = s.rdoutSet := rfl
@[simp] theorem State.emit_pins (e : Event) : (s.emit e).pins = s.pins := rfl
@[simp] theorem State.emit_pinsSet (e : Event) : (s.emit e).pinsSet = s.pinsSet := rfl
@[simp] theorem State.emit_phase (e : Event) : (s.emit e).phase = s.phase := rfl
@[simp] theorem State.emit_trace (e : Event) : (s.emit e).trace = s.trace ++ [e] := rfl
@[simp] theorem State.emit_ctrl (e : Event) : (s.emit e).ctrl = s.ctrl := rfl
@[simp] theorem State.emit_cfg (e : Event) : (s.emit e).cfg = s.cfg := rfl
@[simp] theorem State.emit_host (e : Event) : (s.emit e).host = s.host := rfl
@[simp] theorem State.emit_bitmapPort (e : Event) : (s.emit e).bitmapPort = s.bitmapPort := rfl
@[simp] theorem State.emit_draws (e : Event) : (s.emit e).draws = s.draws := rfl

/-! ### busWrite -/

@[simp] theorem State.busWrite_col (k : BusKind) (b : Byte) : (s.busWrite k b).col = s.col := rfl
@[simp] theorem State.busWrite_line (k : BusKind) (b : Byte) : (s.busWrite k b).line = s.line := rfl
@[simp] theorem State.busWrite_status (k : BusKind) (b : Byte) : (s.busWrite k b).status = s.status := rfl
@[simp] theorem State.busWrite_rdout (k : BusKind) (b : Byte) : (s.busWrite k b).rdout = s.rdout := rfl
@[simp] theorem State.busWrite_rdoutSet (k : BusKind) (b : Byte) : (s.busWrite k b).rdoutSet = s.rdoutSet := rfl
@[simp] theorem State.busWrite_pins (k : BusKind) (b : Byte) : (s.busWrite k b).pins = s.pinsAfter (writeCycle k b) := rfl
@[simp] theorem State.busWrite_pinsSet (k : BusKind) (b : Byte) : (s.busWrite k b).pinsSet = s.pinsSet := rfl
@[simp] theorem State.busWrite_phase (k : BusKind) (b : Byte) : (s.busWrite k b).phase = s.phase := rfl
@[simp] theorem State.busWrite_trace (k : BusKind) (b : Byte) : (s.busWrite k b).trace = s.trace ++ [k.event b] := rfl
@[simp] theorem State.busWrite_ctrl (k : BusKind) (b : Byte) : (s.busWrite k b).ctrl = s.ctrl.onWrite s.cfg k b := rfl
@[simp] theorem State.busWrite_cfg (k : BusKind) (b : Byte) : (s.busWrite k b).cfg = s.cfg := rfl
@[simp] theorem State.busWrite_host (k : BusKind) (b : Byte) : (s.busWrite k b).host = s.host := rfl
@[simp] theorem State.busWrite_bitmapPort (k : BusKind) (b : Byte) : (s.busWrite k b).bitmapPort = s.bitmapPort := rfl
@[simp] theorem State.busWrite_draws (k : BusKind) (b : Byte) : (s.busWrite k b).draws = s.draws := rfl

/-! ### busRead -/

@[simp] theorem State.busRead_col : (s.busRead).col = s.col := rfl
@[simp] theorem State.busRead_line : (s.busRead).line = s.line := rfl
@[simp] theorem State.busRead_status : (s.busRead).status = s.status := rfl
@[simp] theorem State.busRead_rdout : (s.busRead).rdout = s.rdout := rfl
@[simp] theorem State.busRead_rdoutSet : (s.busRead).rdoutSet = s.rdoutSet := rfl
@[simp] theorem State.busRead_pins : (s.busRead).pins = s.pinsAfter (readCycle (Config.draw8 s.draws) s.readValue) := rfl
@[simp] theorem State.busRead_pinsSet : (s.busRead).pinsSet = s.pinsSet := rfl
@[simp] theorem State.busRead_phase : (s.busRead).phase = s.phase := rfl
@[simp] theorem State.busRead_trace : (s.busRead).trace = s.trace ++ [.read s.readValue] := rfl
@[simp] theorem State.busRead_ctrl : (s.busRead).ctrl = s.ctrl.afterRead s.cfg := rfl
@[simp] theorem State.busRead_cfg : (s.busRead).cfg = s.cfg := rfl
@[simp] theorem State.busRead_host : (s.busRead).host = s.host := rfl
@[simp] theorem State.busRead_bitmapPort : (s.busRead).bitmapPort = s.bitmapPort := rfl
@[simp] theorem State.busRead_draws : (s.busRead).draws = s.draws + 1 + s.ctrl.envDraws := rfl

/-! ### setCursor -/

@[simp] theorem State.setCursor_col (l : BitVec 3) : (s.setCursor l).col = 0#5 := rfl
@[simp] theorem State.setCursor_line (l : BitVec 3) : (s.setCursor l).line = l := rfl
@[simp] theorem State.setCursor_status (l : BitVec 3) : (s.setCursor l).status = s.status := rfl
@[simp] theorem State.setCursor_rdout (l : BitVec 3) : (s.setCursor l).rdout = s.rdout := rfl
@[simp] theorem State.setCursor_rdoutSet (l : BitVec 3) : (s.setCursor l).rdoutSet = s.rdoutSet := rfl
@[simp] theorem State.setCursor_pins (l : BitVec 3) : (s.setCursor l).pins = s.pins := rfl
@[simp] theorem State.setCursor_pinsSet (l : BitVec 3) : (s.setCursor l).pinsSet = s.pinsSet := rfl
@[simp] theorem State.setCursor_phase (l : BitVec 3) : (s.setCursor l).phase = s.phase := rfl
@[simp] theorem State.setCursor_trace (l : BitVec 3) : (s.setCursor l).trace = s.trace := rfl
@[simp] theorem State.setCursor_ctrl (l : BitVec 3) : (s.setCursor l).ctrl = s.ctrl := rfl
@[simp] theorem State.setCursor_cfg (l : BitVec 3) : (s.setCursor l).cfg = s.cfg := rfl
@[simp] theorem State.setCursor_host (l : BitVec 3) : (s.setCursor l).host = s.host := rfl
@[simp] theorem State.setCursor_bitmapPort (l : BitVec 3) : (s.setCursor l).bitmapPort = s.bitmapPort := rfl
@[simp] theorem State.setCursor_draws (l : BitVec 3) : (s.setCursor l).draws = s.draws := rfl

/-! ### complete -/

@[simp] theorem State.complete_col : (s.complete).col = s.col := rfl
@[simp] theorem State.complete_line : (s.complete).line = s.line := rfl
@[simp] theorem State.complete_status : (s.complete).status = .ok := rfl
@[simp] theorem State.complete_rdout : (s.complete).rdout = s.rdout := rfl
@[simp] theorem State.complete_rdoutSet : (s.complete).rdoutSet = s.rdoutSet := rfl
@[simp] theorem State.complete_pins : (s.complete).pins = s.pins := rfl
@[simp] theorem State.complete_pinsSet : (s.complete).pinsSet = s.pinsSet := rfl
@[simp] theorem State.complete_phase : (s.complete).phase = .idle := rfl
@[simp] theorem State.complete_trace : (s.complete).trace = s.trace := rfl
@[simp] theorem State.complete_ctrl : (s.complete).ctrl = s.ctrl := rfl
@[simp] theorem State.complete_cfg : (s.complete).cfg = s.cfg := rfl
@[simp] theorem State.complete_host : (s.complete).host = s.host := rfl
@[simp] theorem State.complete_bitmapPort : (s.complete).bitmapPort = s.bitmapPort := rfl
@[simp] theorem State.complete_draws : (s.complete).draws = s.draws := rfl

/-! ### raiseStatus -/

@[simp] theorem State.raiseStatus_col (c : Status) : (s.raiseStatus c).col = s.col := rfl
@[simp] theorem State.raiseStatus_line (c : Status) : (s.raiseStatus c).line = s.line := rfl
@[simp] theorem State.raiseStatus_status (c : Status) : (s.raiseStatus c).status = c := rfl
@[simp] theorem State.raiseStatus_rdout (c : Status) : (s.raiseStatus c).rdout = s.rdout := rfl
@[simp] theorem State.raiseStatus_rdoutSet (c : Status) : (s.raiseStatus c).rdoutSet = s.rdoutSet := rfl
@[simp] theorem State.raiseStatus_pins (c : Status) : (s.raiseStatus c).pins = s.pins := rfl
@[simp] theorem State.raiseStatus_pinsSet (c : Status) : (s.raiseStatus c).pinsSet = s.pinsSet := rfl
@[simp] theorem State.raiseStatus_phase (c : Status) : (s.raiseStatus c).phase = .idle := rfl
@[simp] theorem State.raiseStatus_trace (c : Status) : (s.raiseStatus c).trace = s.trace := rfl
@[simp] theorem State.raiseStatus_ctrl (c : Status) : (s.raiseStatus c).ctrl = s.ctrl := rfl
@[simp] theorem State.raiseStatus_cfg (c : Status) : (s.raiseStatus c).cfg = s.cfg := rfl
@[simp] theorem State.raiseStatus_host (c : Status) : (s.raiseStatus c).host = s.host := rfl
@[simp] theorem State.raiseStatus_bitmapPort (c : Status) : (s.raiseStatus c).bitmapPort = s.bitmapPort := rfl
@[simp] theorem State.raiseStatus_draws (c : Status) : (s.raiseStatus c).draws = s.draws := rfl

/-! ### pinSetup -/

@[simp] theorem State.pinSetup_col : (s.pinSetup).col = s.col := rfl
@[simp] theorem State.pinSetup_line : (s.pinSetup).line = s.line := rfl
@[simp] theorem State.pinSetup_status : (s.pinSetup).status = s.status := rfl
@[simp] theorem State.pinSetup_rdout : (s.pinSetup).rdout = s.rdout := rfl
@[simp] theorem State.pinSetup_rdoutSet : (s.pinSetup).rdoutSet = s.rdoutSet := rfl
@[simp] theorem State.pinSetup_pins : (s.pinSetup).pins = s.pins.setup := rfl
@[simp] theorem State.pinSetup_pinsSet : (s.pinSetup).pinsSet = true := rfl
@[simp] theorem State.pinSetup_phase : (s.pinSetup).phase = s.phase := rfl
@[simp] theorem State.pinSetup_trace : (s.pinSetup).trace = s.trace ++ [.pinSetup] := rfl
@[simp] theorem State.pinSetup_ctrl : (s.pinSetup).ctrl = s.ctrl := rfl
@[simp] theorem State.pinSetup_cfg : (s.pinSetup).cfg = s.cfg := rfl
@[simp] theorem State.pinSetup_host : (s.pinSetup).host = s.host := rfl
@[simp] theorem State.pinSetup_bitmapPort : (s.pinSetup).bitmapPort = s.bitmapPort := rfl
@[simp] theorem State.pinSetup_draws : (s.pinSetup).draws = s.draws := rfl

/-! ### resAssert -/

@[simp] theorem State.resAssert_col : (s.resAssert).col = s.col := rfl
@[simp] theorem State.resAssert_line : (s.resAssert).line = s.line := rfl
@[simp] theorem State.resAssert_status : (s.resAssert).status = s.status := rfl
@[simp] theorem State.resAssert_rdout : (s.resAssert).rdout = s.rdout := rfl
@[simp] theorem State.resAssert_rdoutSet : (s.resAssert).rdoutSet = s.rdoutSet := rfl
@[simp] theorem State.resAssert_pins : (s.resAssert).pins = if s.pinsSet then { s.pins with res := true } else s.pins := rfl
@[simp] theorem State.resAssert_pinsSet : (s.resAssert).pinsSet = s.pinsSet := rfl
@[simp] theorem State.resAssert_phase : (s.resAssert).phase = s.phase := rfl
@[simp] theorem State.resAssert_trace : (s.resAssert).trace = s.trace ++ [.resAssert] := rfl
@[simp] theorem State.resAssert_ctrl : (s.resAssert).ctrl = .unspecified := rfl
@[simp] theorem State.resAssert_cfg : (s.resAssert).cfg = s.cfg := rfl
@[simp] theorem State.resAssert_host : (s.resAssert).host = s.host := rfl
@[simp] theorem State.resAssert_bitmapPort : (s.resAssert).bitmapPort = s.bitmapPort := rfl
@[simp] theorem State.resAssert_draws : (s.resAssert).draws = s.draws := rfl

/-! ### resRelease -/

@[simp] theorem State.resRelease_col : (s.resRelease).col = s.col := rfl
@[simp] theorem State.resRelease_line : (s.resRelease).line = s.line := rfl
@[simp] theorem State.resRelease_status : (s.resRelease).status = s.status := rfl
@[simp] theorem State.resRelease_rdout : (s.resRelease).rdout = s.rdout := rfl
@[simp] theorem State.resRelease_rdoutSet : (s.resRelease).rdoutSet = s.rdoutSet := rfl
@[simp] theorem State.resRelease_pins : (s.resRelease).pins = if s.pinsSet then { s.pins with res := false } else s.pins := rfl
@[simp] theorem State.resRelease_pinsSet : (s.resRelease).pinsSet = s.pinsSet := rfl
@[simp] theorem State.resRelease_phase : (s.resRelease).phase = s.phase := rfl
@[simp] theorem State.resRelease_trace : (s.resRelease).trace = s.trace ++ [.resRelease] := rfl
@[simp] theorem State.resRelease_ctrl : (s.resRelease).ctrl = s.ctrl := rfl
@[simp] theorem State.resRelease_cfg : (s.resRelease).cfg = s.cfg := rfl
@[simp] theorem State.resRelease_host : (s.resRelease).host = s.host := rfl
@[simp] theorem State.resRelease_bitmapPort : (s.resRelease).bitmapPort = s.bitmapPort := rfl
@[simp] theorem State.resRelease_draws : (s.resRelease).draws = s.draws := rfl

/-! ### delay -/

@[simp] theorem State.delay_col (d : Nat) : (s.delay d).col = s.col := rfl
@[simp] theorem State.delay_line (d : Nat) : (s.delay d).line = s.line := rfl
@[simp] theorem State.delay_status (d : Nat) : (s.delay d).status = s.status := rfl
@[simp] theorem State.delay_rdout (d : Nat) : (s.delay d).rdout = s.rdout := rfl
@[simp] theorem State.delay_rdoutSet (d : Nat) : (s.delay d).rdoutSet = s.rdoutSet := rfl
@[simp] theorem State.delay_pins (d : Nat) : (s.delay d).pins = s.pins := rfl
@[simp] theorem State.delay_pinsSet (d : Nat) : (s.delay d).pinsSet = s.pinsSet := rfl
@[simp] theorem State.delay_phase (d : Nat) : (s.delay d).phase = s.phase := rfl
@[simp] theorem State.delay_trace (d : Nat) : (s.delay d).trace = s.trace ++ [.delay d] := rfl
@[simp] theorem State.delay_ctrl (d : Nat) : (s.delay d).ctrl = s.ctrl := rfl
@[simp] theorem State.delay_cfg (d : Nat) : (s.delay d).cfg = s.cfg := rfl
@[simp] theorem State.delay_host (d : Nat) : (s.delay d).host = s.host := rfl
@[simp] theorem State.delay_bitmapPort (d : Nat) : (s.delay d).bitmapPort = s.bitmapPort := rfl
@[simp] theorem State.delay_draws (d : Nat) : (s.delay d).draws = s.draws := rfl

/-! ### initDone -/

@[simp] theorem State.initDone_col : (s.initDone).col = s.col := rfl
@[simp] theorem State.initDone_line : (s.initDone).line = s.line := rfl
@[simp] theorem State.initDone_status : (s.initDone).status = s.status := rfl
@[simp] theorem State.initDone_rdout : (s.initDone).rdout = s.rdout := rfl
@[simp] theorem State.initDone_rdoutSet : (s.initDone).rdoutSet = s.rdoutSet := rfl
@[simp] theorem State.initDone_pins : (s.initDone).pins = s.pins := rfl
@[simp] theorem State.initDone_pinsSet : (s.initDone).pinsSet = s.pinsSet := rfl
@[simp] theorem State.initDone_phase : (s.initDone).phase = s.phase := rfl
@[simp] theorem State.initDone_trace : (s.initDone).trace = s.trace := rfl
@[simp] theorem State.initDone_ctrl : (s.initDone).ctrl = Ctrl.whenInitCompletes s.cfg := rfl
@[simp] theorem State.initDone_cfg : (s.initDone).cfg = s.cfg := rfl
@[simp] theorem State.initDone_host : (s.initDone).host = s.host := rfl
@[simp] theorem State.initDone_bitmapPort : (s.initDone).bitmapPort = s.bitmapPort := rfl
@[simp] theorem State.initDone_draws : (s.initDone).draws = s.draws := rfl

/-! ### submit -/

@[simp] theorem State.submit_col (rs : List HostRequest) : (s.submit rs).col = s.col := rfl
@[simp] theorem State.submit_line (rs : List HostRequest) : (s.submit rs).line = s.line := rfl
@[simp] theorem State.submit_status (rs : List HostRequest) : (s.submit rs).status = s.status := rfl
@[simp] theorem State.submit_rdout (rs : List HostRequest) : (s.submit rs).rdout = s.rdout := rfl
@[simp] theorem State.submit_rdoutSet (rs : List HostRequest) : (s.submit rs).rdoutSet = s.rdoutSet := rfl
@[simp] theorem State.submit_pins (rs : List HostRequest) : (s.submit rs).pins = s.pins := rfl
@[simp] theorem State.submit_pinsSet (rs : List HostRequest) : (s.submit rs).pinsSet = s.pinsSet := rfl
@[simp] theorem State.submit_phase (rs : List HostRequest) : (s.submit rs).phase = s.phase := rfl
@[simp] theorem State.submit_trace (rs : List HostRequest) : (s.submit rs).trace = s.trace := rfl
@[simp] theorem State.submit_ctrl (rs : List HostRequest) : (s.submit rs).ctrl = s.ctrl := rfl
@[simp] theorem State.submit_cfg (rs : List HostRequest) : (s.submit rs).cfg = s.cfg := rfl
@[simp] theorem State.submit_host (rs : List HostRequest) : (s.submit rs).host = s.host ++ rs := rfl
@[simp] theorem State.submit_bitmapPort (rs : List HostRequest) : (s.submit rs).bitmapPort = s.bitmapPort := rfl
@[simp] theorem State.submit_draws (rs : List HostRequest) : (s.submit rs).draws = s.draws := rfl

/-! ### accept -/

@[simp] theorem State.accept_col (r : HostRequest) (q : List HostRequest) : (s.accept r q).col = s.col := rfl
@[simp] theorem State.accept_line (r : HostRequest) (q : List HostRequest) : (s.accept r q).line = s.line := rfl
@[simp] theorem State.accept_status (r : HostRequest) (q : List HostRequest) : (s.accept r q).status = s.status := rfl
@[simp] theorem State.accept_rdout (r : HostRequest) (q : List HostRequest) : (s.accept r q).rdout = s.rdout := rfl
@[simp] theorem State.accept_rdoutSet (r : HostRequest) (q : List HostRequest) : (s.accept r q).rdoutSet = s.rdoutSet := rfl
@[simp] theorem State.accept_pins (r : HostRequest) (q : List HostRequest) : (s.accept r q).pins = s.pins := rfl
@[simp] theorem State.accept_pinsSet (r : HostRequest) (q : List HostRequest) : (s.accept r q).pinsSet = s.pinsSet := rfl
@[simp] theorem State.accept_phase (r : HostRequest) (q : List HostRequest) : (s.accept r q).phase = s.phase := rfl
@[simp] theorem State.accept_trace (r : HostRequest) (q : List HostRequest) : (s.accept r q).trace = s.trace := rfl
@[simp] theorem State.accept_ctrl (r : HostRequest) (q : List HostRequest) : (s.accept r q).ctrl = s.ctrl := rfl
@[simp] theorem State.accept_cfg (r : HostRequest) (q : List HostRequest) : (s.accept r q).cfg = s.cfg := rfl
@[simp] theorem State.accept_host (r : HostRequest) (q : List HostRequest) : (s.accept r q).host = q := rfl
@[simp] theorem State.accept_bitmapPort (r : HostRequest) (q : List HostRequest) : (s.accept r q).bitmapPort = r.bitmap := rfl
@[simp] theorem State.accept_draws (r : HostRequest) (q : List HostRequest) : (s.accept r q).draws = s.draws := rfl

/-! ### drive -/

@[simp] theorem State.drive_col (st : PinStep) : (s.drive st).col = s.col := rfl
@[simp] theorem State.drive_line (st : PinStep) : (s.drive st).line = s.line := rfl
@[simp] theorem State.drive_status (st : PinStep) : (s.drive st).status = s.status := rfl
@[simp] theorem State.drive_rdout (st : PinStep) : (s.drive st).rdout = s.rdout := rfl
@[simp] theorem State.drive_rdoutSet (st : PinStep) : (s.drive st).rdoutSet = s.rdoutSet := rfl
@[simp] theorem State.drive_pins (st : PinStep) : (s.drive st).pins = s.pinsAfter [st] := rfl
@[simp] theorem State.drive_pinsSet (st : PinStep) : (s.drive st).pinsSet = s.pinsSet := rfl
@[simp] theorem State.drive_phase (st : PinStep) : (s.drive st).phase = s.phase := rfl
@[simp] theorem State.drive_trace (st : PinStep) : (s.drive st).trace = s.trace := rfl
@[simp] theorem State.drive_ctrl (st : PinStep) : (s.drive st).ctrl = s.ctrl := rfl
@[simp] theorem State.drive_cfg (st : PinStep) : (s.drive st).cfg = s.cfg := rfl
@[simp] theorem State.drive_host (st : PinStep) : (s.drive st).host = s.host := rfl
@[simp] theorem State.drive_bitmapPort (st : PinStep) : (s.drive st).bitmapPort = s.bitmapPort := rfl
@[simp] theorem State.drive_draws (st : PinStep) : (s.drive st).draws = s.draws := rfl

/-! ### gotoLineCursor -/

@[simp] theorem State.gotoLineCursor_col (l : BitVec 3) : (s.gotoLineCursor l).col = if s.cfg.gotoLineSetsCursor then 0#5 else s.col := rfl
@[simp] theorem State.gotoLineCursor_line (l : BitVec 3) : (s.gotoLineCursor l).line = if s.cfg.gotoLineSetsCursor then l else s.line := rfl
@[simp] theorem State.gotoLineCursor_status (l : BitVec 3) : (s.gotoLineCursor l).status = s.status := rfl
@[simp] theorem State.gotoLineCursor_rdout (l : BitVec 3) : (s.gotoLineCursor l).rdout = s.rdout := rfl
@[simp] theorem State.gotoLineCursor_rdoutSet (l : BitVec 3) : (s.gotoLineCursor l).rdoutSet = s.rdoutSet := rfl
@[simp] theorem State.gotoLineCursor_pins (l : BitVec 3) : (s.gotoLineCursor l).pins = s.pins := rfl
@[simp] theorem State.gotoLineCursor_pinsSet (l : BitVec 3) : (s.gotoLineCursor l).pinsSet = s.pinsSet := rfl
@[simp] theorem State.gotoLineCursor_phase (l : BitVec 3) : (s.gotoLineCursor l).phase = s.phase := rfl
@[simp] theorem State.gotoLineCursor_trace (l : BitVec 3) : (s.gotoLineCursor l).trace = s.trace := rfl
@[simp] theorem State.gotoLineCursor_ctrl (l : BitVec 3) : (s.gotoLineCursor l).ctrl = s.ctrl := rfl
@[simp] theorem State.gotoLineCursor_cfg (l : BitVec 3) : (s.gotoLineCursor l).cfg = s.cfg := rfl
@[simp] theorem State.gotoLineCursor_host (l : BitVec 3) : (s.gotoLineCursor l).host = s.host := rfl
@[simp] theorem State.gotoLineCursor_bitmapPort (l : BitVec 3) : (s.gotoLineCursor l).bitmapPort = s.bitmapPort := rfl
@[simp] theorem State.gotoLineCursor_draws (l : BitVec 3) : (s.gotoLineCursor l).draws = s.draws := rfl

end Sys2Proof.Machine
end

