-- ==== Sys2Proof/Laws/Pins.lean ====
section
/-! SUPPORT. The pin cycles: the pin state each leaves, and that each returns to the idle levels. -/

namespace Sys2Proof.Machine

/-- PINS after a write cycle: DC and DOUT keep what was driven, CS and WR are deasserted. -/
theorem Pins.run_writeCycle (p : Pins) (k : BusKind) (b : Byte) :
    p.run (writeCycle k b) = { p with cs := false, dc := (match k with | .cmd => false | .data => true), dout := b, wr := false } := by
  cases k <;> rfl

/-- PINS after a read cycle: DC is high, DIN keeps the byte presented, the direction is output again. -/
theorem Pins.run_readCycle (p : Pins) (dummy v : Byte) :
    p.run (readCycle dummy v) = { p with cs := false, dc := true, rd := false, ddir := .output, din := v } := rfl

theorem Pins.idle_run_writeCycle {p : Pins} (k : BusKind) (b : Byte) (h : p.idle = true) : (p.run (writeCycle k b)).idle = true := by
  rw [Pins.run_writeCycle]
  simp_all [Pins.idle]

theorem Pins.idle_run_readCycle {p : Pins} (dummy v : Byte) (h : p.idle = true) : (p.run (readCycle dummy v)).idle = true := by
  rw [Pins.run_readCycle]
  simp_all [Pins.idle]

@[simp] theorem Pins.idle_setup (p : Pins) : p.setup.idle = true := rfl

theorem State.pinsAfter_of_set {s : State} (h : s.pinsSet = true) (steps : List PinStep) : s.pinsAfter steps = s.pins.run steps := by
  simp [State.pinsAfter, h]

/-- A write cycle keeps the idle levels of pins that have a value. -/
theorem State.busWrite_idle {s : State} (k : BusKind) (b : Byte) (h : s.pinsSet = true → s.pins.idle = true) :
    (s.busWrite k b).pinsSet = true → (s.busWrite k b).pins.idle = true := by
  intro hs
  rw [State.busWrite_pinsSet] at hs
  rw [State.busWrite_pins, State.pinsAfter_of_set hs]
  exact Pins.idle_run_writeCycle k b (h hs)

/-- A read cycle keeps the idle levels of pins that have a value. -/
theorem State.busRead_idle {s : State} (h : s.pinsSet = true → s.pins.idle = true) :
    s.busRead.pinsSet = true → s.busRead.pins.idle = true := by
  intro hs
  rw [State.busRead_pinsSet] at hs
  rw [State.busRead_pins, State.pinsAfter_of_set hs]
  exact Pins.idle_run_readCycle _ _ (h hs)

end Sys2Proof.Machine
end

