-- ==== Sys2Proof/Laws/Ops.lean ====
section
/-! SUPPORT. The composite operations of Machine/Ops.lean and the two branches of PUT_CHAR: what each leaves in each field. -/

namespace Sys2Proof.Machine

variable (s : State)

/-! ### A list of write cycles -/

@[simp] theorem State.busWriteAll_nil (k : BusKind) : s.busWriteAll k [] = s := rfl
@[simp] theorem State.busWriteAll_cons (k : BusKind) (b : Byte) (bs : List Byte) :
    s.busWriteAll k (b :: bs) = (s.busWrite k b).busWriteAll k bs := rfl

theorem State.busWriteAll_append (k : BusKind) (xs ys : List Byte) :
    s.busWriteAll k (xs ++ ys) = (s.busWriteAll k xs).busWriteAll k ys := List.foldl_append

@[simp] theorem State.busWriteAll_col (k : BusKind) (bs : List Byte) : (s.busWriteAll k bs).col = s.col := by
  induction bs generalizing s with
  | nil => rfl
  | cons b bs ih => rw [State.busWriteAll_cons, ih, State.busWrite_col]
@[simp] theorem State.busWriteAll_line (k : BusKind) (bs : List Byte) : (s.busWriteAll k bs).line = s.line := by
  induction bs generalizing s with
  | nil => rfl
  | cons b bs ih => rw [State.busWriteAll_cons, ih, State.busWrite_line]
@[simp] theorem State.busWriteAll_status (k : BusKind) (bs : List Byte) : (s.busWriteAll k bs).status = s.status := by
  induction bs generalizing s with
  | nil => rfl
  | cons b bs ih => rw [State.busWriteAll_cons, ih, State.busWrite_status]
@[simp] theorem State.busWriteAll_rdout (k : BusKind) (bs : List Byte) : (s.busWriteAll k bs).rdout = s.rdout := by
  induction bs generalizing s with
  | nil => rfl
  | cons b bs ih => rw [State.busWriteAll_cons, ih, State.busWrite_rdout]
@[simp] theorem State.busWriteAll_rdoutSet (k : BusKind) (bs : List Byte) : (s.busWriteAll k bs).rdoutSet = s.rdoutSet := by
  induction bs generalizing s with
  | nil => rfl
  | cons b bs ih => rw [State.busWriteAll_cons, ih, State.busWrite_rdoutSet]
@[simp] theorem State.busWriteAll_pinsSet (k : BusKind) (bs : List Byte) : (s.busWriteAll k bs).pinsSet = s.pinsSet := by
  induction bs generalizing s with
  | nil => rfl
  | cons b bs ih => rw [State.busWriteAll_cons, ih, State.busWrite_pinsSet]
@[simp] theorem State.busWriteAll_phase (k : BusKind) (bs : List Byte) : (s.busWriteAll k bs).phase = s.phase := by
  induction bs generalizing s with
  | nil => rfl
  | cons b bs ih => rw [State.busWriteAll_cons, ih, State.busWrite_phase]
@[simp] theorem State.busWriteAll_cfg (k : BusKind) (bs : List Byte) : (s.busWriteAll k bs).cfg = s.cfg := by
  induction bs generalizing s with
  | nil => rfl
  | cons b bs ih => rw [State.busWriteAll_cons, ih, State.busWrite_cfg]
@[simp] theorem State.busWriteAll_host (k : BusKind) (bs : List Byte) : (s.busWriteAll k bs).host = s.host := by
  induction bs generalizing s with
  | nil => rfl
  | cons b bs ih => rw [State.busWriteAll_cons, ih, State.busWrite_host]
@[simp] theorem State.busWriteAll_bitmapPort (k : BusKind) (bs : List Byte) : (s.busWriteAll k bs).bitmapPort = s.bitmapPort := by
  induction bs generalizing s with
  | nil => rfl
  | cons b bs ih => rw [State.busWriteAll_cons, ih, State.busWrite_bitmapPort]
@[simp] theorem State.busWriteAll_draws (k : BusKind) (bs : List Byte) : (s.busWriteAll k bs).draws = s.draws := by
  induction bs generalizing s with
  | nil => rfl
  | cons b bs ih => rw [State.busWriteAll_cons, ih, State.busWrite_draws]
@[simp] theorem State.busWriteAll_trace (k : BusKind) (bs : List Byte) :
    (s.busWriteAll k bs).trace = s.trace ++ bs.map k.event := by
  induction bs generalizing s with
  | nil => simp
  | cons b bs ih => simp [ih]

@[simp] theorem State.busWriteAll_ctrl (k : BusKind) (bs : List Byte) :
    (s.busWriteAll k bs).ctrl = s.ctrl.onWrites s.cfg k bs := by
  induction bs generalizing s with
  | nil => rfl
  | cons b bs ih => rw [State.busWriteAll_cons, ih]; rfl

@[simp] theorem Ctrl.onWrites_unspecified (cfg : Config) (k : BusKind) (bs : List Byte) :
    Ctrl.onWrites cfg k bs .unspecified = .unspecified := by
  induction bs with
  | nil => rfl
  | cons b bs ih => exact ih

theorem Ctrl.wf_onWrites {cfg : Config} {x : Ctrl} (k : BusKind) (bs : List Byte) (h : x.wf cfg = true) :
    (x.onWrites cfg k bs).wf cfg = true := by
  induction bs generalizing x with
  | nil => exact h
  | cons b bs ih => exact ih (Ctrl.wf_onWrite cfg k b h)

theorem State.busWriteAll_idle {s : State} (k : BusKind) (bs : List Byte) (h : s.pinsSet = true → s.pins.idle = true) :
    (s.busWriteAll k bs).pinsSet = true → (s.busWriteAll k bs).pins.idle = true := by
  induction bs generalizing s with
  | nil => exact h
  | cons b bs ih => exact ih (State.busWrite_idle k b h)

/-! ### The addressing sequence and the clear -/

@[simp] theorem State.addrSeq_col (x p : Byte) : (s.addrSeq x p).col = s.col := State.busWriteAll_col s .cmd _
@[simp] theorem State.addrSeq_line (x p : Byte) : (s.addrSeq x p).line = s.line := State.busWriteAll_line s .cmd _
@[simp] theorem State.addrSeq_status (x p : Byte) : (s.addrSeq x p).status = s.status := State.busWriteAll_status s .cmd _
@[simp] theorem State.addrSeq_rdout (x p : Byte) : (s.addrSeq x p).rdout = s.rdout := State.busWriteAll_rdout s .cmd _
@[simp] theorem State.addrSeq_rdoutSet (x p : Byte) : (s.addrSeq x p).rdoutSet = s.rdoutSet := State.busWriteAll_rdoutSet s .cmd _
@[simp] theorem State.addrSeq_pinsSet (x p : Byte) : (s.addrSeq x p).pinsSet = s.pinsSet := State.busWriteAll_pinsSet s .cmd _
@[simp] theorem State.addrSeq_phase (x p : Byte) : (s.addrSeq x p).phase = s.phase := State.busWriteAll_phase s .cmd _
@[simp] theorem State.addrSeq_cfg (x p : Byte) : (s.addrSeq x p).cfg = s.cfg := State.busWriteAll_cfg s .cmd _
@[simp] theorem State.addrSeq_host (x p : Byte) : (s.addrSeq x p).host = s.host := State.busWriteAll_host s .cmd _
@[simp] theorem State.addrSeq_bitmapPort (x p : Byte) : (s.addrSeq x p).bitmapPort = s.bitmapPort := State.busWriteAll_bitmapPort s .cmd _
@[simp] theorem State.addrSeq_draws (x p : Byte) : (s.addrSeq x p).draws = s.draws := State.busWriteAll_draws s .cmd _
@[simp] theorem State.addrSeq_trace (x p : Byte) :
    (s.addrSeq x p).trace = s.trace ++ [.cmd s.cfg.cmdSetColumn, .cmd x, .cmd 127#8, .cmd (s.cfg.cmdPageStart ||| p)] := by
  simp [State.addrSeq, addrSeqBytes, BusKind.event]
@[simp] theorem State.addrSeq_ctrl (x p : Byte) :
    (s.addrSeq x p).ctrl = s.ctrl.onWrites s.cfg .cmd (addrSeqBytes s.cfg x p) := State.busWriteAll_ctrl s .cmd _
theorem State.addrSeq_idle {s : State} (x p : Byte) (h : s.pinsSet = true → s.pins.idle = true) :
    (s.addrSeq x p).pinsSet = true → (s.addrSeq x p).pins.idle = true := State.busWriteAll_idle .cmd _ h

@[simp] theorem State.clearScreen_col : s.clearScreen.col = s.col := by simp [State.clearScreen]
@[simp] theorem State.clearScreen_line : s.clearScreen.line = s.line := by simp [State.clearScreen]
@[simp] theorem State.clearScreen_status : s.clearScreen.status = s.status := by simp [State.clearScreen]
@[simp] theorem State.clearScreen_rdout : s.clearScreen.rdout = s.rdout := by simp [State.clearScreen]
@[simp] theorem State.clearScreen_rdoutSet : s.clearScreen.rdoutSet = s.rdoutSet := by simp [State.clearScreen]
@[simp] theorem State.clearScreen_pinsSet : s.clearScreen.pinsSet = s.pinsSet := by simp [State.clearScreen]
@[simp] theorem State.clearScreen_phase : s.clearScreen.phase = s.phase := by simp [State.clearScreen]
@[simp] theorem State.clearScreen_cfg : s.clearScreen.cfg = s.cfg := by simp [State.clearScreen]
@[simp] theorem State.clearScreen_host : s.clearScreen.host = s.host := by simp [State.clearScreen]
@[simp] theorem State.clearScreen_bitmapPort : s.clearScreen.bitmapPort = s.bitmapPort := by simp [State.clearScreen]
@[simp] theorem State.clearScreen_draws : s.clearScreen.draws = s.draws := by simp [State.clearScreen]
theorem State.clearScreen_idle {s : State} (h : s.pinsSet = true → s.pins.idle = true) :
    s.clearScreen.pinsSet = true → s.clearScreen.pins.idle = true :=
  State.busWriteAll_idle .data _ (State.addrSeq_idle 0#8 0#8 h)

/-! ### The reset pulse -/

@[simp] theorem State.resetPulse_col : s.resetPulse.col = s.col := rfl
@[simp] theorem State.resetPulse_line : s.resetPulse.line = s.line := rfl
@[simp] theorem State.resetPulse_status : s.resetPulse.status = s.status := rfl
@[simp] theorem State.resetPulse_rdout : s.resetPulse.rdout = s.rdout := rfl
@[simp] theorem State.resetPulse_rdoutSet : s.resetPulse.rdoutSet = s.rdoutSet := rfl
@[simp] theorem State.resetPulse_pinsSet : s.resetPulse.pinsSet = s.pinsSet := rfl
@[simp] theorem State.resetPulse_phase : s.resetPulse.phase = s.phase := rfl
@[simp] theorem State.resetPulse_cfg : s.resetPulse.cfg = s.cfg := rfl
@[simp] theorem State.resetPulse_host : s.resetPulse.host = s.host := rfl
@[simp] theorem State.resetPulse_bitmapPort : s.resetPulse.bitmapPort = s.bitmapPort := rfl
@[simp] theorem State.resetPulse_draws : s.resetPulse.draws = s.draws := rfl
@[simp] theorem State.resetPulse_ctrl : s.resetPulse.ctrl = .unspecified := rfl
@[simp] theorem State.resetPulse_trace :
    s.resetPulse.trace = s.trace ++ [.resAssert, .delay s.cfg.tResLow, .resRelease, .delay s.cfg.tResRecover] := by
  simp [State.resetPulse]
/-- The pulse ends with RES released and the other pins as they were. -/
theorem State.resetPulse_pins (h : s.pinsSet = true) : s.resetPulse.pins = { s.pins with res := false } := by
  simp [State.resetPulse, h]

/-! ### The two branches of PUT_CHAR -/

@[simp] theorem State.wrapLine_status : s.wrapLine.status = s.status := by simp [State.wrapLine]
@[simp] theorem State.wrapLine_rdout : s.wrapLine.rdout = s.rdout := by simp [State.wrapLine]
@[simp] theorem State.wrapLine_rdoutSet : s.wrapLine.rdoutSet = s.rdoutSet := by simp [State.wrapLine]
@[simp] theorem State.wrapLine_pinsSet : s.wrapLine.pinsSet = s.pinsSet := by simp [State.wrapLine]
@[simp] theorem State.wrapLine_phase : s.wrapLine.phase = s.phase := by simp [State.wrapLine]
@[simp] theorem State.wrapLine_cfg : s.wrapLine.cfg = s.cfg := by simp [State.wrapLine]
@[simp] theorem State.wrapLine_host : s.wrapLine.host = s.host := by simp [State.wrapLine]
@[simp] theorem State.wrapLine_bitmapPort : s.wrapLine.bitmapPort = s.bitmapPort := by simp [State.wrapLine]
@[simp] theorem State.wrapLine_draws : s.wrapLine.draws = s.draws := by simp [State.wrapLine]
@[simp] theorem State.wrapLine_col : s.wrapLine.col = 0#5 := by simp [State.wrapLine]
@[simp] theorem State.wrapLine_line : s.wrapLine.line = s.line + 1#3 := by simp [State.wrapLine]
theorem State.wrapLine_idle {s : State} (h : s.pinsSet = true → s.pins.idle = true) :
    s.wrapLine.pinsSet = true → s.wrapLine.pins.idle = true := by
  simp only [State.wrapLine, State.gotoLineCursor_pinsSet, State.gotoLineCursor_pins]
  exact State.addrSeq_idle _ _ h

@[simp] theorem State.renderGlyph_line (c : Byte) : (s.renderGlyph c).line = s.line := by simp [State.renderGlyph]
@[simp] theorem State.renderGlyph_status (c : Byte) : (s.renderGlyph c).status = s.status := by simp [State.renderGlyph]
@[simp] theorem State.renderGlyph_rdout (c : Byte) : (s.renderGlyph c).rdout = s.rdout := by simp [State.renderGlyph]
@[simp] theorem State.renderGlyph_rdoutSet (c : Byte) : (s.renderGlyph c).rdoutSet = s.rdoutSet := by simp [State.renderGlyph]
@[simp] theorem State.renderGlyph_pinsSet (c : Byte) : (s.renderGlyph c).pinsSet = s.pinsSet := by simp [State.renderGlyph]
@[simp] theorem State.renderGlyph_phase (c : Byte) : (s.renderGlyph c).phase = s.phase := by simp [State.renderGlyph]
@[simp] theorem State.renderGlyph_cfg (c : Byte) : (s.renderGlyph c).cfg = s.cfg := by simp [State.renderGlyph]
@[simp] theorem State.renderGlyph_host (c : Byte) : (s.renderGlyph c).host = s.host := by simp [State.renderGlyph]
@[simp] theorem State.renderGlyph_bitmapPort (c : Byte) : (s.renderGlyph c).bitmapPort = s.bitmapPort := by simp [State.renderGlyph]
@[simp] theorem State.renderGlyph_col (c : Byte) : (s.renderGlyph c).col = s.col + 1#5 := by simp [State.renderGlyph]
@[simp] theorem State.renderGlyph_draws (c : Byte) : (s.renderGlyph c).draws = s.draws + glyphDraws c := by simp [State.renderGlyph]
@[simp] theorem State.renderGlyph_trace (c : Byte) :
    (s.renderGlyph c).trace = s.trace ++ (s.glyphBytes c).map .data ++ [.data 0#8] := by
  simp only [State.renderGlyph, State.busWrite_trace, State.busWriteAll_trace]
  rfl
theorem State.renderGlyph_idle {s : State} (c : Byte) (h : s.pinsSet = true → s.pins.idle = true) :
    (s.renderGlyph c).pinsSet = true → (s.renderGlyph c).pins.idle = true :=
  State.busWrite_idle .data 0#8 (State.busWriteAll_idle .data _ h)

/-- A glyph is five bytes, whatever the code. -/
theorem State.glyphBytes_length (c : Byte) : (s.glyphBytes c).length = 5 := by
  unfold State.glyphBytes
  split <;> simp

end Sys2Proof.Machine
end

