-- ==== Sys2Proof/Laws/PerInstr.lean ====
section
/-! SUPPORT. Statements made once per request, one lemma a constructor. `EncodedMask`: under the mask of the opcode map every encoded request
is its OP (30_encoding.md R93: mask 0xFF0000FF, match OP), whatever its operands. -/

namespace Sys2Proof.Laws.EncodedMask

/-- The encoded request under the opcode map's mask is OP. -/
def Statement (i : Instr) : Prop := encode i &&& 0xFF0000FF#32 = i.op.setWidth 32

/-- The mask on the request layout drops the two operand fields. -/
theorem masked_layout (op : BitVec 4) (a b : Byte) : (0#8 ++ b ++ a ++ 0#4 ++ op : Word) &&& 0xFF0000FF#32 = op.setWidth 32 := by
  refine BitVec.eq_of_getLsbD_eq fun k hk => ?_
  have hm : ∀ k, k < 32 → (0xFF0000FF#32).getLsbD k = (decide (k < 8) || decide (24 ≤ k)) := by decide
  rw [BitVec.getLsbD_and, hm k hk]
  simp only [BitVec.getLsbD_append, BitVec.getLsbD_setWidth, BitVec.getLsbD_zero]
  by_cases h4 : k < 4
  · simp [h4, hk, show k < 8 by omega]
  · have h4' : op.getLsbD k = false := BitVec.getLsbD_of_ge _ _ (by omega)
    by_cases h8 : k < 8
    · simp [h4, h4', show k - 4 < 4 by omega]
    · by_cases h24 : 24 ≤ k
      · simp [h4, h4', h8, show ¬ k - 4 < 4 by omega, show ¬ k - 4 - 4 < 8 by omega, show ¬ k - 4 - 4 - 8 < 8 by omega]
      · simp [h8, h24, h4']

theorem wcmd (byte : Byte) : Statement (.wcmd byte) := masked_layout _ _ _
theorem wdata (byte : Byte) : Statement (.wdata byte) := masked_layout _ _ _
theorem rdata : Statement .rdata := masked_layout _ _ _
theorem gotoPixel (x y : Byte) : Statement (.gotoPixel x y) := masked_layout _ _ _
theorem gotoLine (line : Byte) : Statement (.gotoLine line) := masked_layout _ _ _
theorem putChar (code : Byte) : Statement (.putChar code) := masked_layout _ _ _
theorem blit : Statement .blit := masked_layout _ _ _
theorem clearPixel (x y : Byte) : Statement (.clearPixel x y) := masked_layout _ _ _
theorem clearScreen : Statement .clearScreen := masked_layout _ _ _
theorem init : Statement .init := masked_layout _ _ _

end Sys2Proof.Laws.EncodedMask
end

