-- ==== Sys2Proof/Tests/Slice0.lean ====
section
/-! SUPPORT. The model's own tests, each expected result taken from spec/95_test_vectors.md (its vector is named) or written out from the rule
named, and for every obligation with hypotheses a witness: a concrete state and operands that meet them all. -/

namespace Sys2Proof.Tests

open Sys2Proof.Machine

/-! ## Helpers -/

/-- The illustrative script of V-L1. -/
def script : List Byte :=
  [0xAE#8, 0xD5#8, 0x80#8, 0xA8#8, 0x3F#8, 0xD3#8, 0x00#8, 0x40#8, 0xC8#8, 0xDA#8, 0x12#8, 0x81#8] ++
  [0x8F#8, 0xD9#8, 0xF1#8, 0xDB#8, 0x40#8, 0xA6#8, 0x20#8, 0x00#8, 0x21#8, 0x00#8, 0x7F#8, 0xAF#8]

/-- The parameters of the vectors, with a glyph table in which byte k of the entry at index n is n + k. -/
def cfg : Config where
  glyph := Vector.ofFn fun n => Vector.ofFn fun k => BitVec.ofNat 8 (n.val + k.val)
  cmdSetColumn := 0x21#8
  cmdPageStart := 0xB0#8
  ctrlActiveLow := true
  initScript := script
  tResLow := 3
  tResRecover := 100
  gotoLineSetsCursor := false
  ctrlWrapCol := .zero
  ctrlArgc := Config.defaultArgc
  resLowNeeded := 3
  resRecoverNeeded := 100
  attached := true

/-- The block after block reset and a conforming INIT ("Post-INIT" of 95_test_vectors.md), its trace started afresh. -/
def post : State :=
  { State.reset with
    cfg := cfg
    pins := ⟨false, true, false, false, false, 0#8, .output, 0#8⟩
    pinsSet := true
    ctrl := .specified Controller.afterInit }

/-- `post` with the controller pointer at a column and page and some display bytes. -/
def at' (column page : Nat) (mem : Memory) : State :=
  { post with
    ctrl := .specified { Controller.afterInit with cptr := BitVec.ofNat 7 column, pptr := BitVec.ofNat 3 page, mem := mem } }

/-- `post` with the text cursor somewhere. -/
def cursor (col line : Nat) : State := { post with col := BitVec.ofNat 5 col, line := BitVec.ofNat 3 line }

/-- `post` with one request presented. -/
def presenting (w : Word) : State := { post with host := [⟨w, []⟩] }

/-- What a request does to a state, seen through `view`. -/
def seen {α : Type} (i : Instr) (s : State) (view : State → α) : Option α :=
  match exec i s with
  | .next t => some (view t)
  | .fault _ => none
  | .refused _ => none

/-- The pointer of a specified reference controller, (CPTR, PPTR). -/
def pointer (s : State) : Option (Nat × Nat) :=
  match s.ctrl with
  | .specified c => some (c.cptr.toNat, c.pptr.toNat)
  | .unspecified => none

/-! ## Decoding: words written out from the layout of R91 (95_test_vectors.md section 2.1) -/

theorem test_decode_bus : decode 0x0000AF01#32 = .ok (.wcmd 0xAF#8) ∧ decode 0x00FF5502#32 = .ok (.wdata 0x55#8) ∧
    decode 0x00000003#32 = .ok .rdata := by decide
theorem test_decode_addressing : decode 0x000D0A04#32 = .ok (.gotoPixel 10#8 13#8) ∧
    decode 0x00000305#32 = .ok (.gotoLine 3#8) := by decide
theorem test_decode_text : decode 0x00004106#32 = .ok (.putChar 0x41#8) := by decide
theorem test_decode_graphics : decode 0x00000007#32 = .ok .blit ∧ decode 0x000D0A08#32 = .ok (.clearPixel 10#8 13#8) ∧
    decode 0x00000009#32 = .ok .clearScreen := by decide
theorem test_decode_lifecycle : decode 0x0000000A#32 = .ok .init := by decide
theorem test_decode_illegal : decode 0#32 = .error .reservedOpcode ∧ decode 0x0000000C#32 = .error .reservedOpcode ∧
    decode 0x12345603#32 = .error .rsv1NotZero ∧ decode 0x00000013#32 = .error .rsv0NotZero := by decide
theorem test_decode_bytes : decodeBytes [0x04#8, 0x0A#8, 0x0D#8, 0x00#8, 0xAA#8] = .ok (.gotoPixel 10#8 13#8, [0xAA#8]) ∧
    decodeBytes [0x04#8, 0x0A#8, 0x0D#8] = .error .truncated := by decide
theorem test_decode_table_word : decodeTableWord 32 0x000D0A08 = some (.clearPixel 10#8 13#8) ∧ decodeTableWord 32 0 = none := by decide
theorem test_assemble : assemble "GOTO_PIXEL 10, 0x0D".toList = some [.gotoPixel 10#8 13#8] ∧
    assembleWords "PUT_CHAR 'A'".toList = some [0x00004106#32] ∧
    assemble "PUT_STRING \"Hi\"".toList = some [.putChar 0x48#8, .putChar 0x69#8] ∧
    assemble "PUT_STRING \"\"".toList = some [] ∧ assemble "WCMD 256".toList = none := by decide

/-- A program with a bitmap: `buf` of three bytes, then the request of the line after it (R103). -/
theorem test_assemble_program : assembleProgram "BLIT\nbuf = [0x01, 2,0xFF]\n\nRDATA".toList =
      some [⟨0x00000007#32, [1#8, 2#8, 0xFF#8]⟩, ⟨0x00000003#32, []⟩] ∧
    assembleProgram "BLIT\nbuf = []".toList = some [⟨0x00000007#32, []⟩] ∧ assembleProgram "BLIT\nRDATA".toList = none ∧
    assembleProgram "BLIT".toList = none ∧ assembleProgram "BLIT\nbuf = [256]".toList = none := by decide +kernel

/-! ## WellFormed: each check refuses an ill-formed record, and the vectors' parameters pass -/

theorem test_wellFormed_accepts : cfg.wellFormed = true := by decide
theorem test_wellFormed_pageStartLowBits : Config.pageStartLowBitsZero { cfg with cmdPageStart := 0xB1#8 } = false := by decide
theorem test_wellFormed_setColumnArguments : Config.setColumnTakesTwo { cfg with cmdSetColumn := 0x81#8 } = false := by decide
theorem test_wellFormed_pageStartArguments :
    Config.pageStartTakesNone { cfg with ctrlArgc := [⟨0xB7#8, 0xB7#8, 1⟩, ⟨0x21#8, 0x21#8, 2⟩] } = false := by decide

/-! ## Bus cycles (section 2.2) -/

/-- V-B1, with its pin steps. -/
theorem test_wcmd : seen (.wcmd 0xAE#8) post (·.trace) = some [.cmd 0xAE#8] ∧
    (pinHistory 6 (post.begin (.wcmd 0xAE#8))).map (fun p => (p.cs, p.dc, p.wr, p.dout)) =
      [(true, true, false, 0#8), (true, false, false, 0#8), (true, false, false, 0xAE#8), (true, false, true, 0xAE#8),
       (true, false, false, 0xAE#8), (false, false, false, 0xAE#8)] := by decide

/-- V-B4 and, with the wrap of the page, V-B3. -/
theorem test_wdata : seen (.wdata 0x55#8) (at' 127 2 []) (fun t => (t.displayByte 383, pointer t)) = some (some 0x55#8, some (0, 3)) ∧
    seen (.wdata 0#8) (at' 127 7 [(1023, 0xFF#8)]) (fun t => (t.displayByte 1023, pointer t)) = some (some 0#8, some (0, 0)) := by decide

/-- V-B5. -/
theorem test_rdata : seen .rdata (at' 5 2 [(261, 0x3C#8)]) (fun t => (t.trace, t.hostRdout, pointer t)) =
    some ([.read 0x3C#8], some 0x3C#8, some (6, 2)) := by decide

/-- The pin steps of V-B5: DDIR=IN; CS=1; DC=1; RD=1; RD=0; RD=1; sample; RD=0; CS=0; DDIR=OUT. -/
theorem test_rdata_pins : (pinHistory 10 ((at' 5 2 [(261, 0x3C#8)]).begin .rdata)).map (fun p => (p.ddir, p.cs, p.dc, p.rd)) =
    [(.input, false, true, false), (.input, true, true, false), (.input, true, true, false), (.input, true, true, true),
     (.input, true, true, false), (.input, true, true, true), (.input, true, true, true), (.input, true, true, false),
     (.input, false, true, false), (.output, false, true, false)] := by decide

/-! ## Address engine (section 2.3) -/

/-- V-A2 and V-A4. -/
theorem test_gotoPixel : seen (.gotoPixel 127#8 63#8) post (fun t => (t.trace, pointer t)) =
      some ([.cmd 0x21#8, .cmd 0x7F#8, .cmd 0x7F#8, .cmd 0xB7#8], some (127, 7)) ∧
    seen (.gotoPixel 5#8 8#8) post (fun t => (t.trace, pointer t)) =
      some ([.cmd 0x21#8, .cmd 0x05#8, .cmd 0x7F#8, .cmd 0xB1#8], some (5, 1)) := by decide

/-- V-A5 and V-A6. -/
theorem test_gotoPixel_out : exec (.gotoPixel 128#8 0#8) post = .next { post with status := .outOfBounds } ∧
    exec (.gotoPixel 0#8 64#8) post = .next { post with status := .outOfBounds } := ⟨rfl, rfl⟩

/-- V-A12 and V-A13. -/
theorem test_gotoLine : seen (.gotoLine 3#8) (cursor 7 1) (fun t => (t.trace, t.col, t.line)) =
      some ([.cmd 0x21#8, .cmd 0#8, .cmd 0x7F#8, .cmd 0xB3#8], 7#5, 1#3) ∧
    seen (.gotoLine 3#8) { cursor 7 1 with cfg := { cfg with gotoLineSetsCursor := true } } (fun t => (t.col, t.line)) =
      some (0#5, 3#3) := by decide

/-- V-A10. -/
theorem test_gotoLine_out : exec (.gotoLine 8#8) post = .next { post with status := .outOfBounds } := rfl

/-! ## Text cursor (section 2.4) -/

/-- V-T2 with this glyph table: code 0x5A is index 58. -/
theorem test_putChar_render : seen (.putChar 0x5A#8) (cursor 20 0) (fun t => (t.trace, t.col, t.line)) =
    some ([.data 58#8, .data 59#8, .data 60#8, .data 61#8, .data 62#8, .data 0#8], 21#5, 0#3) := by decide

/-- V-T3 and V-T6. -/
theorem test_putChar_wrap : seen (.putChar 0x5A#8) (cursor 21 0) (fun t => (t.trace, t.col, t.line)) =
      some ([.cmd 0x21#8, .cmd 0#8, .cmd 0x7F#8, .cmd 0xB1#8], 0#5, 1#3) ∧
    seen (.putChar 0x0A#8) (cursor 5 7) (fun t => (t.trace, t.col, t.line)) =
      some ([.cmd 0x21#8, .cmd 0#8, .cmd 0x7F#8, .cmd 0xB0#8], 0#5, 0#3) := by decide

/-! ## Graphics (section 2.5) -/

/-- V-G10 and V-G11. -/
theorem test_blit_mismatch :
    seen .blit { post with bitmapPort := List.replicate 1023 0#8 } (fun t => (t.trace, t.status)) = some ([], .sizeMismatch) ∧
    exec .blit post = .next { post with status := .sizeMismatch } := ⟨by decide +kernel, rfl⟩

/-- The start of V-G8, as the transactions of the request: (0,0), then buf[0] and buf[1]. -/
theorem test_blit_order : ({ post with bitmapPort := (List.range 1024).map (BitVec.ofNat 8) }.txns .blit).take 6 =
    [.write .cmd 0x21#8, .write .cmd 0#8, .write .cmd 0x7F#8, .write .cmd 0xB0#8, .write .data 0#8, .write .data 1#8] := by decide +kernel

/-- V-G1. -/
theorem test_clearPixel : seen (.clearPixel 10#8 13#8) (at' 0 0 [(138, 0xFF#8)]) (fun t => (t.trace, t.displayByte 138, pointer t)) =
    some ([.cmd 0x21#8, .cmd 0x0A#8, .cmd 0x7F#8, .cmd 0xB1#8, .read 0xFF#8, .cmd 0x21#8, .cmd 0x0A#8, .cmd 0x7F#8, .cmd 0xB1#8,
      .data 0xDF#8], some 0xDF#8, some (11, 1)) := by decide

/-- V-G3, and its form under `CTRL_WRAP_COL = START`. -/
theorem test_clearPixel_corner :
    seen (.clearPixel 127#8 63#8) (at' 0 0 [(1023, 0x80#8)]) (fun t => (t.displayByte 1023, pointer t)) = some (some 0#8, some (0, 0)) ∧
    seen (.clearPixel 127#8 63#8) { at' 0 0 [(1023, 0x80#8)] with cfg := { cfg with ctrlWrapCol := .start } } pointer =
      some (some (127, 0)) := by decide

/-- V-G9: the start and the length of the transactions. -/
theorem test_clearScreen : (post.txns .clearScreen).take 5 =
      [.write .cmd 0x21#8, .write .cmd 0#8, .write .cmd 0x7F#8, .write .cmd 0xB0#8, .write .data 0#8] ∧
    post.transactions .clearScreen = 1028 := by decide +kernel

/-! ## Lifecycle (section 2.6) -/

/-- V-L1: the script conforms under the table of R76, and the trace has 1057 events. -/
theorem test_init_script : scriptConforms cfg = true ∧ post.transactions .init = 1057 := by decide +kernel

/-- A script whose column range is not 0..127 does not conform (R193). -/
theorem test_init_script_range : scriptConforms { cfg with initScript := script.set 22 0x7E#8 } = false := by decide

/-- A reset delay one below what the controller needs leaves the reference state unspecified (R241); as long as it needs is enough. -/
theorem test_init_delays : Ctrl.whenInitCompletes cfg = .specified Controller.afterInit ∧
    Ctrl.whenInitCompletes { cfg with tResLow := 2 } = .unspecified ∧
    Ctrl.whenInitCompletes { cfg with tResRecover := 99 } = .unspecified := by decide +kernel

/-! ## Status and the port (section 2.7) -/

/-- V-E1 and V-E4. -/
theorem test_step_illegal : step (presenting 0x0000000C#32) = .next { post with status := .illegalRequest } ∧
    step (presenting 0x01000004#32) = .next { post with status := .illegalRequest } := ⟨rfl, rfl⟩

/-- The presented word is the one the next step runs, from reset: GOTO_PIXEL 128, 0. -/
theorem test_withFetchWord : step (State.reset.withFetchWord 32 0x00008004) = .next { State.reset with status := .outOfBounds } := rfl

/-! ## Witnesses: the hypotheses of each obligation can be met

One theorem an obligation, named after it; each clause at a boundary of its range. -/

/-- A controller waiting for the two arguments of set column. -/
def waiting : Controller := { Controller.afterInit with pend := some ⟨0x21#8, 2, []⟩ }

/-- `post` while its first request runs. -/
def running : State := post.begin (.wcmd 0xAE#8)

theorem witness_StepRunsTheDecodedRequest : (presenting 0x00000003#32).phase = .idle ∧
    (presenting 0x00000003#32).host = ⟨0x00000003#32, []⟩ :: [] ∧ decode 0x00000003#32 = .ok .rdata := by decide

theorem witness_StepWaitsWhenNoRequestIsPresented : post.phase = .idle ∧ post.host = [] := by decide

theorem witness_PortAcceptsOnlyWhenReady : running.ready = 0#1 ∧ (presenting 0x00000003#32).ready = 1#1 ∧
    (presenting 0x00000003#32).host = ⟨0x00000003#32, []⟩ :: [] := by decide

theorem witness_IllegalWordsCompleteWithIllegalRequest :
    (decode 0x000000FA#32 = .error .rsv0NotZero ∧ decode 0xFF00000A#32 = .error .rsv1NotZero ∧ decode 0x0000000B#32 = .error .reservedOpcode) ∧
    (presenting 0x0000000F#32).phase = .idle ∧ (presenting 0x0000000F#32).host = ⟨0x0000000F#32, []⟩ :: [] ∧
    decode 0x0000000F#32 = .error .reservedOpcode ∧ (∃ b, Instr.wcmd 0xFF#8 = .wcmd b) ∧ (∃ b, Instr.wdata 0#8 = .wdata b) ∧
    ∃ c, Instr.putChar 0x0A#8 = .putChar c := ⟨by decide, by decide, by decide, by decide, ⟨_, rfl⟩, ⟨_, rfl⟩, ⟨_, rfl⟩⟩

theorem witness_DecodeInvertsEncode : (Instr.gotoPixel 255#8 255#8).wellFormed = true ∧ Instr.init.wellFormed = true := by decide

theorem witness_BytesAreReadLittleEndian : decode 0x00FF5502#32 = .ok (.wdata 0x55#8) ∧ decode 0x00000013#32 = .error .rsv0NotZero := by decide

theorem witness_RaisedStatusChangesNothingElse :
    exec (.gotoLine 8#8) post = .next { post with status := .outOfBounds } ∧ { post with status := .outOfBounds }.status ≠ .ok ∧
    (presenting 0x00000010#32).phase = .idle ∧ (presenting 0x00000010#32).host = ⟨0x00000010#32, []⟩ :: [] ∧
    decode 0x00000010#32 = .error .rsv0NotZero := ⟨rfl, by decide, by decide, by decide, by decide⟩

theorem witness_OnlyTextRequestsMoveTheCursor :
    (∃ t, step (presenting 0x00000A06#32) = .next t ∧ ¬ sameCursor (presenting 0x00000A06#32) t) ∧
    ∃ t, step { presenting 0x00000705#32 with cfg := { cfg with gotoLineSetsCursor := true } } = .next t ∧
      ¬ sameCursor { presenting 0x00000705#32 with cfg := { cfg with gotoLineSetsCursor := true } } t :=
  ⟨⟨_, rfl, fun h => absurd h.2 (by decide)⟩, ⟨_, rfl, fun h => absurd h.2 (by decide)⟩⟩

theorem witness_OnlyRdataWritesRdout : Instr.clearPixel 128#8 0#8 ≠ .rdata ∧ ∃ t, exec (.clearPixel 128#8 0#8) post = .next t :=
  ⟨by decide, _, rfl⟩

theorem witness_StepsExtendTheTraceAndKeepTheParameters : ∃ t, step (presenting 0x0000AF01#32) = .next t := ⟨_, rfl⟩

theorem witness_ControllerReceivesTheTraceInOrder : Instr.clearPixel 10#8 13#8 ≠ .init ∧
    ∃ t, exec (.clearPixel 10#8 13#8) post = .next t ∧ t.trace = post.trace ++
      ([.cmd 0x21#8, .cmd 0x0A#8, .cmd 0x7F#8, .cmd 0xB1#8] ++ Event.read 0#8 :: [.cmd 0x21#8, .cmd 0x0A#8, .cmd 0x7F#8, .cmd 0xB1#8, .data 0#8]) ∧
      [Event.cmd 0x21#8, .cmd 0x0A#8, .cmd 0x7F#8, .cmd 0xB1#8].foldl (Ctrl.onEvent post.cfg) post.ctrl ≠ .unspecified :=
  ⟨by decide, _, rfl, by decide, by decide⟩

theorem witness_TransactionCountsAreTheTable : (∃ t, exec (.gotoPixel 127#8 63#8) post = .next t) ∧
    (∃ t, exec (.gotoLine 8#8) post = .next t) ∧ ∃ t, exec (.putChar 0x41#8) (cursor 20 7) = .next t := ⟨⟨_, rfl⟩, ⟨_, rfl⟩, ⟨_, rfl⟩⟩

theorem witness_WritesNeverDependOnTheController : Instr.blit ≠ .rdata ∧ ∀ a b, Instr.blit ≠ .clearPixel a b :=
  ⟨by decide, fun _ _ h => nomatch h⟩

theorem cfg_boots : initBoots cfg = true := by decide +kernel

/-- The invariant holds of a state with a booted controller, a full text line and a command pending. -/
theorem witness_EveryStepKeepsTheInvariant :
    ({ presenting 0x0000AF01#32 with col := 21#5, ctrl := .specified waiting } : State).Inv ∧
    ∃ t, step { presenting 0x0000AF01#32 with col := 21#5, ctrl := .specified waiting } = .next t :=
  ⟨⟨by decide, rfl, by decide, by decide, fun _ => ⟨rfl, cfg_boots⟩⟩, _, rfl⟩

theorem witness_StepsFromTheInvariantNeverStop : post.Inv := ⟨by decide, rfl, by decide, by decide, fun _ => ⟨rfl, cfg_boots⟩⟩

theorem witness_CanonicalMemoriesThatReadAlikeAreEqual : Memory.wf [(0, 1#8), (1023, 0xFF#8)] = true ∧
    ∀ a, a < 1024 → Memory.read [(0, 1#8), (1023, 0xFF#8)] a = Memory.read [(0, 1#8), (1023, 0xFF#8)] a := ⟨by decide, fun _ _ => rfl⟩

theorem witness_ObserverRecognisesTheTransactions : post.pinsSet = true ∧ post.pins.idle = true := by decide

theorem witness_EveryRequestSettlesBeforeItsStrobes : (at' 5 2 []).pinsSet = true ∧ (at' 5 2 []).pins.idle = true := by decide

theorem witness_IdleLinesStandDeasserted : Pins.idle ⟨false, true, false, false, false, 0xFF#8, .output, 0#8⟩ = true := by decide

theorem witness_PinLevelAgreesWithTheTransactionLevel : 5 < post.pinSteps (.wdata 0#8) ∧ 9 < post.pinSteps .rdata := by decide

theorem witness_WdataSendsOneDataByte : post.ctrl = .specified Controller.afterInit ∧ (1023 : Nat) ≠ Controller.afterInit.addr ∧
    ∃ t, exec (.wdata 1#8) post = .next t ∧ t.displayByte 1023 = some 0#8 := ⟨rfl, by decide, _, rfl, by decide⟩

/-- Both clauses of the advance: at column CEND and one before it. -/
theorem witness_DataWriteStoresAtThePointerAndAdvances :
    ∃ c d : Controller, (at' 127 7 []).ctrl = .specified c ∧ c.pend = none ∧ c.mem.wf = true ∧ c.cptr = c.cend ∧
      (at' 126 7 []).ctrl = .specified d ∧ d.pend = none ∧ d.mem.wf = true ∧ d.cptr ≠ d.cend :=
  ⟨_, _, rfl, rfl, rfl, by decide, rfl, rfl, rfl, by decide⟩

theorem witness_ReadReturnsTheByteAtThePointerAndAdvancesOnce :
    ∃ c d : Controller, (at' 127 7 []).ctrl = .specified c ∧ c.pend = none ∧ c.cptr = c.cend ∧
      (at' 0 0 []).ctrl = .specified d ∧ d.pend = none ∧ d.cptr ≠ d.cend :=
  ⟨_, _, rfl, rfl, by decide, rfl, rfl, by decide⟩

theorem witness_DataOrReadWhileAnArgumentIsPendingIsUnspecified :
    { post with ctrl := .specified waiting }.ctrl = .specified waiting ∧ waiting.pend = some ⟨0x21#8, 2, []⟩ := by decide

theorem witness_AnUnspecifiedControllerStaysUnspecified :
    (State.reset.withFetchWord 32 0x00000003).ctrl = .unspecified ∧ (∃ t, step (State.reset.withFetchWord 32 0x00000003) = .next t) ∧
    (State.reset.withFetchWord 32 0x00000003).host = ⟨0x00000003#32, []⟩ :: [] ∧ decode 0x00000003#32 = .ok .rdata :=
  ⟨rfl, ⟨_, rfl⟩, rfl, by decide⟩

/-- The clauses of the range: 127 and 127, then 127 and 126, then 0 and 128. -/
theorem witness_RawSetColumnSetsTheRangeOrLosesTheState :
    post.ctrl = .specified Controller.afterInit ∧ Controller.afterInit.pend = none ∧ post.cfg.setColumnTakesTwo = true ∧
    ((127#8).toNat ≤ (127#8).toNat ∧ (127#8).toNat ≤ 127) ∧ ¬ ((127#8).toNat ≤ (126#8).toNat ∧ (126#8).toNat ≤ 127) ∧
    ¬ ((0#8).toNat ≤ (128#8).toNat ∧ (128#8).toNat ≤ 127) := by decide

theorem witness_RawCommandsWithoutArguments :
    post.ctrl = .specified Controller.afterInit ∧ Controller.afterInit.pend = none ∧ post.cfg.argc 0xB7#8 = 0 ∧
    0xB7#8 &&& 0xF8#8 = post.cfg.cmdPageStart ∧ post.cfg.argc 0xAE#8 = 0 ∧ 0xAE#8 &&& 0xF8#8 ≠ post.cfg.cmdPageStart ∧
    0xAE#8 ≠ post.cfg.cmdSetColumn := by decide

theorem witness_GotoPixelIssuesTheAddressingSequence : ((127#8).toNat < 128 ∧ (63#8).toNat < 64) ∧
    (128 ≤ (128#8).toNat ∨ 64 ≤ (0#8).toNat) ∧ (128 ≤ (0#8).toNat ∨ 64 ≤ (64#8).toNat) := by decide

theorem witness_GotoLineIssuesTheAddressingSequence : (7#8).toNat < 8 ∧ 8 ≤ (8#8).toNat := by decide

theorem witness_GotoLineEqualsGotoPixelAtTheLine : (0#8).toNat < 8 ∧ (7#8).toNat < 8 := by decide

theorem witness_ValidRepositionPlacesThePointer :
    post.cfg.wellFormed = true ∧ post.ctrl = .specified Controller.afterInit ∧ Controller.afterInit.pend = none ∧
    ((127#8).toNat < 128 ∧ (63#8).toNat < 64) ∧ (7#8).toNat < 8 ∧ (128 ≤ (128#8).toNat ∨ 64 ≤ (0#8).toNat) ∧
    (128 ≤ (0#8).toNat ∨ 64 ≤ (64#8).toNat) ∧ 8 ≤ (8#8).toNat := by decide

theorem witness_PutCharWrapsAtNewlineOrFullLine :
    (0x0A#8 = 0x0A#8 ∨ 21 ≤ (cursor 0 7).col.toNat) ∧ (0x41#8 = 0x0A#8 ∨ 21 ≤ (cursor 21 7).col.toNat) := by decide

/-- The first and the last printable code, at columns 0 and 20. -/
theorem witness_PutCharRendersFiveColumnsAndASpacer :
    (0x20#8 ≠ 0x0A#8 ∧ (cursor 0 0).col.toNat < 21 ∧ 32 ≤ (0x20#8).toNat ∧ (0x20#8).toNat ≤ 126) ∧
    0x7E#8 ≠ 0x0A#8 ∧ (cursor 20 0).col.toNat < 21 ∧ 32 ≤ (0x7E#8).toNat ∧ (0x7E#8).toNat ≤ 126 := by decide

/-- The last column at which a glyph and its spacer fit below CEND. -/
theorem witness_RenderedGlyphLandsAtThePointer :
    0x41#8 ≠ 0x0A#8 ∧ (at' 121 7 []).col.toNat < 21 ∧ ∃ c : Controller, (at' 121 7 []).ctrl = .specified c ∧ c.pend = none ∧
      c.mem.wf = true ∧ c.cptr.toNat + 6 ≤ c.cend.toNat := ⟨by decide, by decide, _, rfl, rfl, rfl, by decide⟩

theorem witness_AFullLineTakesEveryCharacterAsNewline : (cursor 21 7).col = 21#5 := by decide

theorem witness_TheTwentySecondCharacterIsDropped :
    (cursor 0 7).col = 0#5 ∧ (List.replicate 21 0x20#8).length = 21 ∧
    (∀ c ∈ 0x7E#8 :: List.replicate 21 0x20#8, 32 ≤ c.toNat ∧ c.toNat ≤ 126) ∧ (cursor 0 7).cfg.wellFormed = true ∧
    (cursor 0 7).ctrl = .specified Controller.afterInit ∧ Controller.afterInit.pend = none := by decide

theorem witness_BlitSendsTheFrameInOrder : { post with bitmapPort := List.replicate 1024 0xFF#8 }.bitmapPort.length = 1024 :=
  List.length_replicate

theorem witness_BlitLaysTheFrameOutByPage :
    post.cfg.wellFormed = true ∧ post.ctrl = .specified Controller.afterInit ∧ Controller.afterInit.pend = none ∧
    Controller.afterInit.mem.wf = true ∧ { post with bitmapPort := List.replicate 1024 0xFF#8 }.bitmapPort.length = 1024 :=
  ⟨by decide, by decide, by decide, by decide, List.length_replicate⟩

theorem witness_ClearPixelReadsRepositionsAndWritesBack : (127#8).toNat < 128 ∧ (63#8).toNat < 64 := by decide

theorem witness_ClearPixelClearsExactlyOneBit :
    ∃ c : Controller, (at' 3 1 [(1023, 0x80#8)]).cfg.wellFormed = true ∧ (at' 3 1 [(1023, 0x80#8)]).ctrl = .specified c ∧ c.pend = none ∧
      c.mem.wf = true ∧ (127#8).toNat < 128 ∧ (63#8).toNat < 64 :=
  ⟨_, by decide, rfl, rfl, by decide, by decide, by decide⟩

theorem witness_ClearMaskClearsItsBitAlone : (7 : Nat) < 8 ∧ (0 : Nat) < 8 := by decide

theorem witness_ClearScreenZeroesTheDisplay :
    ∃ c : Controller, (at' 3 1 [(1023, 0x80#8)]).cfg.wellFormed = true ∧ (at' 3 1 [(1023, 0x80#8)]).ctrl = .specified c ∧ c.pend = none ∧
      c.mem.wf = true := ⟨_, by decide, rfl, rfl, by decide⟩

theorem witness_WriteRepositionReadReturnsTheByte :
    post.cfg.wellFormed = true ∧ post.ctrl = .specified Controller.afterInit ∧ Controller.afterInit.pend = none ∧
    Controller.afterInit.mem.wf = true ∧ (0#8).toNat < 128 ∧ (63#8).toNat < 64 := by decide

/-- Both clauses: an INIT that meets every condition, with the delays exactly as long as needed, and each premise of the other clause. -/
theorem witness_InitBootsTheReferenceController :
    (post.cfg.attached = true ∧ post.cfg.resLowNeeded ≤ post.cfg.tResLow ∧ post.cfg.resRecoverNeeded ≤ post.cfg.tResRecover ∧
      scriptConforms post.cfg = true ∧ post.cfg.wellFormed = true ∧ scriptInRange post.cfg = true) ∧
    { cfg with attached := false }.attached = false ∧ (2 : Nat) < cfg.resLowNeeded ∧ (99 : Nat) < cfg.resRecoverNeeded ∧
    scriptConforms { cfg with initScript := [] } = false ∧ Config.wellFormed { cfg with cmdPageStart := 0xB1#8 } = false ∧
    scriptInRange { cfg with initScript := [0x21#8, 0#8, 128#8] } = false := by decide +kernel

theorem witness_InitBootsOnlyWhereItsTransactionsDo :
    initBoots cfg = true ∧ Controller.afterInit.pend = none ∧ Controller.afterInit.mem.wf = true := by decide +kernel

theorem witness_ProgramsAssembleToEncodedRequests :
    assembleProgram "BLIT\nbuf = [7]".toList = some [⟨0x00000007#32, [7#8]⟩] ∧
    (⟨0x00000003#32, []⟩ : HostRequest) ∈ [(⟨0x00000003#32, []⟩ : HostRequest)] ∧
    assembleProgram "RDATA".toList = some [⟨0x00000003#32, []⟩] ∧ bitmapLine "buf = [0, 255]".toList = some [0#8, 255#8] ∧
    assembleLines ["RDATA".toList] = some [⟨0x00000003#32, []⟩] := by decide +kernel

theorem witness_InitTransactionsDeriveTheBootState :
    cfg.cmdSetColumn = 0x21#8 ∧ cfg.cmdPageStart = 0xB0#8 ∧ cfg.ctrlArgc = Config.defaultArgc ∧ scriptConforms cfg = true ∧
    Controller.afterInit.pend = none ∧ Controller.afterInit.mem.wf = true := by decide

end Sys2Proof.Tests
end

section
/-! PROOFS. The two levels of 00_scope.md R12. The pin steps left (`State.pinsLeft`) fall by one with each pin step, which settles READY; each
transaction's pin steps end in its transaction-level effect (`State.runTxn`), which settles the state. -/

namespace Sys2Proof.Machine

/-! ### How many pin steps are left -/

/-- The pin steps to come before the block is at IDLE; a request with nothing left to do takes one that only finishes it. -/
def State.pinsLeft (s : State) : Nat :=
  match s.phase with
  | .idle => 0
  | .busy p =>
    match p.todo with
    | [] => 1
    | t :: rest => max 1 (t.pinSteps - p.pin) + (rest.map Txn.pinSteps).sum

theorem Txn.pinSteps_pos (t : Txn) : 0 < t.pinSteps := by
  unfold Txn.pinSteps
  split <;> decide

@[simp] theorem State.finish_phase (s : State) (i : Instr) (v : Byte) : (s.finish i v).phase = .idle := by
  cases i with
  | putChar c => simp only [State.finish]; split <;> rfl
  | _ => rfl

theorem State.ready_eq_zero_iff (s : State) : s.ready = 0#1 ↔ 0 < s.pinsLeft := by
  unfold State.ready State.pinsLeft
  cases hph : s.phase with
  | idle => simp
  | busy p => cases htodo : p.todo <;> simp [htodo]

/-- A pin step keeps the place among the transactions: of the progress it writes only the two bytes of a read cycle. -/
theorem State.txnPin_progress (s : State) (p : Progress) (t : Txn) :
    ∃ bus v, (s.txnPin p t).2 = { p with bus := bus, v := v } := by
  cases t with
  | read => simp only [State.txnPin]; unfold State.readPin; split <;> exact ⟨_, _, rfl⟩
  | _ => exact ⟨p.bus, p.v, rfl⟩

theorem pinsLeft_pinStep (s : State) : (pinStep s).pinsLeft = s.pinsLeft - 1 := by
  cases hph : s.phase with
  | idle => simp [pinStep, State.pinsLeft, hph]
  | busy p =>
    cases htodo : p.todo with
    | nil => simp [pinStep, State.pinsLeft, hph, htodo]
    | cons t rest =>
      obtain ⟨bus, v, hkeep⟩ := s.txnPin_progress p t
      by_cases hin : p.pin + 1 < t.pinSteps
      · simp only [pinStep, State.pinsLeft, hph, htodo, hin, if_true, hkeep]
        omega
      · cases rest with
        | nil =>
          simp only [pinStep, State.pinsLeft, hph, htodo, hin, if_false, State.finish_phase, List.map_nil, List.sum_nil]
          omega
        | cons u rest =>
          have := u.pinSteps_pos
          simp only [pinStep, State.pinsLeft, hph, htodo, hin, if_false, List.map_cons, List.sum_cons]
          omega

theorem pinsLeft_pinRun (n : Nat) (s : State) : (pinRun n s).pinsLeft = s.pinsLeft - n := by
  induction n generalizing s with
  | zero => rfl
  | succ n ih => rw [pinRun, ih, pinsLeft_pinStep]; omega

/-! ### A transaction at each level -/

/-- PHASE at a place inside a request. -/
def State.busyAt (s : State) (p : Progress) : State := { s with phase := .busy p }

/-- The transaction-level effect of a transaction; `v` is the byte of the last read cycle. -/
def State.runTxn (s : State) (v : Byte) : Txn → State
  | .write k b => s.busWrite k b
  | .read => s.busRead
  | .writeBack mask => s.busWrite .data (v &&& mask)
  | .pinSetup => s.pinSetup
  | .resAssert => s.resAssert
  | .resRelease => s.resRelease
  | .delay t => s.delay t

/-- The byte of the last read cycle after a transaction, where it was `v` before. -/
def State.lastRead (s : State) (v : Byte) : Txn → Byte
  | .read => s.readValue
  | .write _ _ | .writeBack _ | .pinSetup | .resAssert | .resRelease | .delay _ => v

/-- The state and the byte of the last read cycle after transactions one after another. -/
def State.runTxns (s : State) (v : Byte) : List Txn → State × Byte
  | [] => (s, v)
  | t :: ts => (s.runTxn v t).runTxns (s.lastRead v t) ts

/-- One pin step of the transaction `t`, at the state and the progress `r`. -/
def Txn.advance (t : Txn) (r : State × Progress) : State × Progress :=
  ((r.1.txnPin r.2 t).1, { (r.1.txnPin r.2 t).2 with pin := r.2.pin + 1 })

/-- Where the pin level goes from a transaction's last pin step: to the next transaction, or to the end of the request (R120). -/
def State.nextTxn (s : State) (p : Progress) (rest : List Txn) : State :=
  match rest with
  | [] => s.finish p.req p.v
  | _ :: _ => s.busyAt { p with index := p.index + 1, todo := rest, pin := 0 }

theorem State.finish_putChar_of_wraps {s : State} {c : Byte} (v : Byte) (h : wraps c s.col = true) :
    s.finish (.putChar c) v = ((s.setCursor (s.line + 1#3)).gotoLineCursor (s.line + 1#3)).complete := if_pos h

theorem State.finish_putChar_of_not_wraps {s : State} {c : Byte} (v : Byte) (h : ¬ wraps c s.col = true) :
    s.finish (.putChar c) v = { s with col := s.col + 1#5, draws := s.draws + glyphDraws c }.complete := if_neg h

/-- What PHASE was does not matter to the end of a request. -/
theorem State.finish_busyAt (s : State) (p : Progress) (i : Instr) (v : Byte) : (s.busyAt p).finish i v = s.finish i v := by
  cases i with
  | putChar c =>
    by_cases h : wraps c s.col = true
    · rw [State.finish_putChar_of_wraps v h, State.finish_putChar_of_wraps (s := s.busyAt p) v h]; rfl
    · rw [State.finish_putChar_of_not_wraps v h, State.finish_putChar_of_not_wraps (s := s.busyAt p) v h]; rfl
  | _ => rfl

theorem pinRun_add (m n : Nat) (s : State) : pinRun (m + n) s = pinRun n (pinRun m s) := by
  induction m generalizing s with
  | zero => rw [Nat.zero_add]; rfl
  | succ m ih => rw [Nat.succ_add, pinRun, ih, pinRun]

/-- A pin step does not look at PHASE. -/
theorem State.txnPin_busyAt (s : State) (p q : Progress) (t : Txn) :
    (s.busyAt q).txnPin p t = ((s.txnPin p t).1.busyAt q, (s.txnPin p t).2) := by
  cases t with
  | write k b => simp only [State.txnPin]; unfold State.writePin; split <;> rfl
  | writeBack mask => simp only [State.txnPin]; unfold State.writePin; split <;> rfl
  | read => simp only [State.txnPin]; unfold State.readPin; split <;> rfl
  | _ => rfl

/-- A pin step of a request: the next one of the transaction under way, or that transaction's last (R120). -/
theorem pinStep_busyAt {s : State} {p : Progress} {t : Txn} {rest : List Txn} (htodo : p.todo = t :: rest) :
    pinStep (s.busyAt p) =
      if p.pin + 1 < t.pinSteps then (t.advance (s, p)).1.busyAt (t.advance (s, p)).2
      else (t.advance (s, p)).1.nextTxn (t.advance (s, p)).2 rest := by
  obtain ⟨bus, v, hkeep⟩ := s.txnPin_progress p t
  have hpin := s.txnPin_busyAt p p t
  simp only [State.busyAt] at hpin
  simp only [pinStep, State.busyAt, htodo, hpin, Txn.advance, hkeep]
  split
  · rfl
  · cases rest with
    | nil => exact State.finish_busyAt ..
    | cons u rest => rfl

/-- Pin steps up to the end of a transaction, seen on the transaction alone. -/
theorem pinRun_to_last (n : Nat) {s : State} {p : Progress} {t : Txn} {rest : List Txn} (htodo : p.todo = t :: rest)
    (h : p.pin + n + 1 = t.pinSteps) :
    pinRun (n + 1) (s.busyAt p) = (t.advance^[n + 1] (s, p)).1.nextTxn (t.advance^[n + 1] (s, p)).2 rest := by
  induction n generalizing s p with
  | zero => exact (pinStep_busyAt htodo).trans (if_neg (by omega))
  | succ n ih =>
    obtain ⟨bus, v, hkeep⟩ := s.txnPin_progress p t
    rw [pinRun, pinStep_busyAt htodo, if_pos (by omega), Function.iterate_succ_apply]
    exact ih (by simp only [Txn.advance, hkeep, htodo]) (by simp only [Txn.advance]; omega)

/-- The pin steps W1 to W6 make up `BusWrite` (R121). -/
theorem State.writePin_cycle (s : State) (k : BusKind) (b : Byte) :
    (((((s.writePin k b 0).writePin k b 1).writePin k b 2).writePin k b 3).writePin k b 4).writePin k b 5 = s.busWrite k b := by
  cases hset : s.pinsSet <;>
    simp [State.writePin, State.drive, State.pinsAfter, hset, State.busWrite, Pins.run, writeCycle, Pins.apply, State.emit]

/-- The pin steps RS1 to RS10 make up `BusRead` and sample its byte (R124). -/
theorem readCycle_advance (s : State) (p : Progress) :
    Txn.read.advance^[10] (s, { p with pin := 0 }) =
      (s.busRead, { p with pin := 10, bus := s.readValue, v := s.readValue }) := by
  cases hset : s.pinsSet <;>
    simp [Txn.advance, State.txnPin, State.readPin, State.drive, State.pinsAfter, hset, State.busRead, State.readValue,
      Pins.run, readCycle, Pins.apply, State.emit]

/-- A transaction's pin steps have its transaction-level effect. -/
theorem Txn.advance_pinSteps (s : State) (p : Progress) (t : Txn) :
    t.advance^[t.pinSteps] (s, { p with pin := 0 }) =
      (s.runTxn p.v t, { p with pin := t.pinSteps, bus := s.lastRead p.bus t, v := s.lastRead p.v t }) := by
  cases t with
  | write k b => simp [Txn.pinSteps, Txn.advance, State.txnPin, State.runTxn, State.lastRead, s.writePin_cycle]
  | writeBack mask => simp [Txn.pinSteps, Txn.advance, State.txnPin, State.runTxn, State.lastRead, s.writePin_cycle]
  | read => exact readCycle_advance s p
  | _ => rfl

/-- A transaction's pin steps, done within a request, lead to the next transaction or to the end of the request. -/
theorem pinRun_txn (s : State) (p : Progress) (t : Txn) (rest : List Txn) :
    pinRun t.pinSteps (s.busyAt { p with todo := t :: rest, pin := 0 }) =
      (s.runTxn p.v t).nextTxn { p with bus := s.lastRead p.bus t, v := s.lastRead p.v t } rest := by
  have hpos := t.pinSteps_pos
  have h := pinRun_to_last (t.pinSteps - 1) (s := s) (p := { p with todo := t :: rest, pin := 0 }) rfl (by simp only; omega)
  rw [Nat.sub_add_cancel hpos, Txn.advance_pinSteps s { p with todo := t :: rest } t] at h
  rw [h]
  cases rest <;> rfl

/-! ### A request at each level -/

/-- Running the pin steps of a request's remaining transactions is running the transactions and ending the request. -/
theorem pinRun_txns (ts : List Txn) (hts : ts ≠ []) (s : State) (p : Progress) :
    pinRun (ts.map Txn.pinSteps).sum (s.busyAt { p with todo := ts, pin := 0 }) =
      (s.runTxns p.v ts).1.finish p.req (s.runTxns p.v ts).2 := by
  induction ts generalizing s p with
  | nil => exact absurd rfl hts
  | cons t rest ih =>
    rw [List.map_cons, List.sum_cons, pinRun_add, pinRun_txn]
    cases rest with
    | nil => rfl
    | cons u rest =>
      exact ih (List.cons_ne_nil u rest) (s.runTxn p.v t)
        { p with index := p.index + 1, bus := s.lastRead p.bus t, v := s.lastRead p.v t }

theorem State.runTxns_append (s : State) (v : Byte) (ts us : List Txn) :
    s.runTxns v (ts ++ us) = (s.runTxns v ts).1.runTxns (s.runTxns v ts).2 us := by
  induction ts generalizing s v with
  | nil => rfl
  | cons t ts ih => exact ih ..

@[simp] theorem State.runTxns_writes (s : State) (v : Byte) (k : BusKind) (bs : List Byte) :
    s.runTxns v (bs.map (.write k)) = (s.busWriteAll k bs, v) := by
  induction bs generalizing s with
  | nil => rfl
  | cons b bs ih => exact ih ..

@[simp] theorem State.runTxns_addrSeq {s : State} {cfg : Config} (v x p : Byte) (hcfg : cfg = s.cfg) :
    s.runTxns v (addrSeqTxns cfg x p) = (s.addrSeq x p, v) := hcfg ▸ s.runTxns_writes v .cmd _

@[simp] theorem State.runTxns_screen {s : State} {cfg : Config} (v : Byte) (bs : List Byte) (hcfg : cfg = s.cfg) :
    s.runTxns v (screenTxns cfg bs) = ((s.addrSeq 0#8 0#8).busWriteAll .data bs, v) := by
  simp [screenTxns, State.runTxns_append, hcfg]

theorem State.runTxns_lifecycle (s : State) (v : Byte) :
    s.runTxns v [.pinSetup, .resAssert, .delay s.cfg.tResLow, .resRelease, .delay s.cfg.tResRecover] =
      (s.pinSetup.resetPulse, v) := rfl

theorem State.txns_ne_nil (s : State) (i : Instr) : s.txns i ≠ [] := by
  cases i with
  | putChar c => simp only [State.txns]; split <;> simp [addrSeqTxns, addrSeqBytes]
  | _ => simp [State.txns, screenTxns, addrSeqTxns, addrSeqBytes]

/-- A request its own check turns away ends with that status and does nothing else (R201). -/
theorem exec_of_check_ne_ok {i : Instr} {s : State} (h : s.check i ≠ .ok) : exec i s = .next (s.raiseStatus (s.check i)) := by
  cases i with
  | gotoPixel x y =>
    have hout : ¬ pixelOK x y = true := fun hok => h (if_pos hok)
    simp [exec, execGotoPixel, State.check, hout]
  | clearPixel x y =>
    have hout : ¬ pixelOK x y = true := fun hok => h (if_pos hok)
    simp [exec, execClearPixel, State.check, hout]
  | gotoLine l =>
    have hout : ¬ lineOK l = true := fun hok => h (if_pos hok)
    simp [exec, execGotoLine, State.check, hout]
  | blit =>
    have hout : ¬ s.bitmapPort.length = Config.displayBytes := fun hok => h (if_pos hok)
    simp [exec, execBlit, State.check, hout]
  | _ => exact absurd rfl h

/-- A request that passes its check is its transactions one after another, and then its end. -/
theorem exec_of_check_ok {i : Instr} {s : State} (v : Byte) (h : s.check i = .ok) :
    exec i s = .next ((s.runTxns v (s.txns i)).1.finish i (s.runTxns v (s.txns i)).2) := by
  cases i with
  | wcmd b => rfl
  | wdata b => rfl
  | rdata => rfl
  | gotoPixel x y =>
    have hok : pixelOK x y = true := by simpa [State.check] using h
    simp [exec, execGotoPixel, hok, State.txns, State.finish]
  | gotoLine l =>
    have hok : lineOK l = true := by simpa [State.check] using h
    simp [exec, execGotoLine, hok, State.txns, State.finish]
  | putChar c =>
    by_cases hw : wraps c s.col = true
    · have hdo : exec (.putChar c) s = .next s.wrapLine.complete := if_pos hw
      have hfin := State.finish_putChar_of_wraps (s := s.addrSeq 0#8 ((s.line + 1#3).setWidth 8)) v hw
      simp only [State.txns, hw, if_true, State.runTxns_addrSeq, hdo, hfin]
      rfl
    · have hdo : exec (.putChar c) s = .next (s.renderGlyph c).complete := if_neg hw
      have hcol : ¬ wraps c (s.busWriteAll .data (s.glyphBytes c ++ [0#8])).col = true := by simpa using hw
      have htxns : s.txns (.putChar c) = (s.glyphBytes c ++ [0#8]).map (.write .data) := by simp [State.txns, hw]
      rw [hdo, htxns, State.runTxns_writes, State.finish_putChar_of_not_wraps v hcol, State.busWriteAll_append]
      rfl
  | blit =>
    have hok : s.bitmapPort.length = Config.displayBytes := by simpa [State.check] using h
    simp [exec, execBlit, hok, State.txns, State.finish]
  | clearPixel x y =>
    have hok : pixelOK x y = true := by simpa [State.check] using h
    simp [exec, execClearPixel, hok, State.txns, State.finish, State.runTxns_append, State.runTxns, State.runTxn, State.lastRead]
  | clearScreen => simp [exec, execClearScreen, State.txns, State.finish, State.clearScreen]
  | init =>
    simp only [exec, execInit, State.txns, State.finish, State.clearScreen, State.runTxns_append, State.runTxns_lifecycle,
      State.runTxns_writes]
    simp

theorem State.begin_of_check_ok {s : State} {i : Instr} (h : s.check i = .ok) :
    s.begin i = s.busyAt { req := i, index := 0, todo := s.txns i, pin := 0, bus := 0#8, v := 0#8 } := by
  simp only [State.begin, h, State.busyAt]

theorem State.begin_of_check_ne_ok {s : State} {i : Instr} (h : s.check i ≠ .ok) :
    s.begin i = s.raiseStatus (s.check i) := by
  unfold State.begin
  split
  · next hok => exact absurd hok h
  · rfl

theorem State.pinSteps_of_check_ok {s : State} {i : Instr} (h : s.check i = .ok) :
    s.pinSteps i = ((s.txns i).map Txn.pinSteps).sum := by
  simp only [State.pinSteps, h]

theorem State.pinSteps_of_check_ne_ok {s : State} {i : Instr} (h : s.check i ≠ .ok) : s.pinSteps i = 0 := by
  unfold State.pinSteps
  split
  · next hok => exact absurd hok h
  · rfl

/-- The pin steps a request has left when it begins are all of its own. -/
theorem State.pinsLeft_begin (s : State) (i : Instr) : (s.begin i).pinsLeft = s.pinSteps i := by
  by_cases h : s.check i = .ok
  · rw [State.begin_of_check_ok h, State.pinSteps_of_check_ok h]
    have hne := s.txns_ne_nil i
    cases htodo : s.txns i with
    | nil => exact absurd htodo hne
    | cons t rest =>
      have := t.pinSteps_pos
      simp only [State.pinsLeft, State.busyAt, List.map_cons, List.sum_cons]
      omega
  · rw [State.begin_of_check_ne_ok h, State.pinSteps_of_check_ne_ok h]
    rfl

theorem exec_eq_pinRun (i : Instr) (s : State) : exec i s = .next (pinRun (s.pinSteps i) (s.begin i)) := by
  by_cases h : s.check i = .ok
  · rw [exec_of_check_ok 0#8 h, State.pinSteps_of_check_ok h, State.begin_of_check_ok h]
    exact congrArg _ (pinRun_txns (s.txns i) (s.txns_ne_nil i) s
      { req := i, index := 0, todo := s.txns i, pin := 0, bus := 0#8, v := 0#8 }).symm
  · rw [exec_of_check_ne_ok h, State.pinSteps_of_check_ne_ok h, State.begin_of_check_ne_ok h]
    rfl

theorem ready_pinRun_begin {i : Instr} {s : State} {m : Nat} (h : m < s.pinSteps i) : (pinRun m (s.begin i)).ready = 0#1 := by
  rw [State.ready_eq_zero_iff, pinsLeft_pinRun, State.pinsLeft_begin]
  omega

/-- Settles O24: the state by the agreement of each transaction's pin steps with its transaction-level effect, READY by the pin steps left. -/
theorem pinLevelAgreesWithTheTransactionLevel : Obligations.PinLevelAgreesWithTheTransactionLevel := by
  unfold Obligations.PinLevelAgreesWithTheTransactionLevel
  exact fun i s => ⟨exec_eq_pinRun i s, fun _ hm => ready_pinRun_begin hm⟩

/-! ### A step runs its request -/

theorem step_of_decode_ok {s : State} {r : HostRequest} {rest : List HostRequest} {i : Instr} (hidle : s.phase = .idle)
    (hhost : s.host = r :: rest) (hdec : decode r.word = .ok i) : step s = exec i (s.accept r rest) := by
  simp only [step, hidle, hhost, hdec]

/-- Settles O2: the port accepts the request at the head of the host's list, which brings its frame. -/
theorem stepRunsTheDecodedRequest : Obligations.StepRunsTheDecodedRequest := by
  unfold Obligations.StepRunsTheDecodedRequest
  exact fun _ _ _ _ hidle hhost hdec => step_of_decode_ok hidle hhost hdec

end Sys2Proof.Machine
end

section
/-! PROOFS. The state across a step (10_state.md). A request is turned away, or it is its transactions and then its end (`exec_next_cases`);
what each transaction and each end keeps is then kept by the request, and by the step that accepts it. -/

namespace Sys2Proof.Machine

/-! ### What a step can do -/

/-- A request ends turned away by its own check, or with its transactions done and its end (R201, R243). -/
theorem exec_next_cases {i : Instr} {s t : State} (h : exec i s = .next t) :
    t = s.raiseStatus (s.check i) ∨ ∃ v, t = (s.runTxns 0#8 (s.txns i)).1.finish i v := by
  by_cases hc : s.check i = .ok
  · exact .inr ⟨_, Host.Outcome.next.inj (h.symm.trans (exec_of_check_ok 0#8 hc))⟩
  · exact .inl (Host.Outcome.next.inj (h.symm.trans (exec_of_check_ne_ok hc)))

theorem step_of_idle_nil {s : State} (hidle : s.phase = .idle) (hhost : s.host = []) : step s = .next s := by
  simp only [step, hidle, hhost]

theorem step_of_decode_error {s : State} {r : HostRequest} {rest : List HostRequest} {e : DecodeError} (hidle : s.phase = .idle)
    (hhost : s.host = r :: rest) (hdec : decode r.word = .error e) : step s = .next ((s.accept r rest).raiseStatus .illegalRequest) := by
  simp only [step, hidle, hhost, hdec]

theorem step_of_busy {s : State} {p : Progress} (hbusy : s.phase = .busy p) : step s = .refused .portNotReady := by
  simp only [step, hbusy]

/-- A step that answers: nothing was presented, the word was illegal, or it was a request (R33, R95, R213). -/
theorem step_cases {s t : State} (h : step s = .next t) :
    t = s ∨
    (∃ r rest, t = (s.accept r rest).raiseStatus .illegalRequest) ∨
    ∃ r rest i, exec i (s.accept r rest) = .next t := by
  cases hph : s.phase with
  | busy p => simp [step_of_busy hph] at h
  | idle =>
    cases hhost : s.host with
    | nil => exact .inl (by simpa [step_of_idle_nil hph hhost] using h.symm)
    | cons r rest =>
      cases hdec : decode r.word with
      | error e => exact .inr (.inl ⟨r, rest, by simpa [step_of_decode_error hph hhost hdec] using h.symm⟩)
      | ok i => exact .inr (.inr ⟨r, rest, i, step_of_decode_ok hph hhost hdec ▸ h⟩)

/-! ### READY and the port -/

theorem State.ready_eq_one_iff (s : State) : s.ready = 1#1 ↔ s.phase = .idle := by
  unfold State.ready
  split <;> simp_all

theorem State.busy_of_ready_eq_zero {s : State} (h : s.ready = 0#1) : ∃ p, s.phase = .busy p := by
  cases hph : s.phase with
  | idle => simp [State.ready, hph] at h
  | busy p => exact ⟨p, rfl⟩

theorem sameHostSide.trans {s t u : State} (hst : sameHostSide s t) (htu : sameHostSide t u) : sameHostSide s u :=
  ⟨htu.1.trans hst.1, htu.2.1.trans hst.2.1, htu.2.2.trans hst.2.2⟩

theorem State.finish_hostSide (s : State) (i : Instr) (v : Byte) : sameHostSide s (s.finish i v) := by
  cases i with
  | putChar c => simp only [State.finish]; split <;> exact ⟨rfl, rfl, rfl⟩
  | _ => exact ⟨rfl, rfl, rfl⟩

theorem State.txnPin_hostSide (s : State) (p : Progress) (t : Txn) : sameHostSide s (s.txnPin p t).1 := by
  cases t with
  | write k b => simp only [State.txnPin]; unfold State.writePin; split <;> exact ⟨rfl, rfl, rfl⟩
  | writeBack mask => simp only [State.txnPin]; unfold State.writePin; split <;> exact ⟨rfl, rfl, rfl⟩
  | read => simp only [State.txnPin]; unfold State.readPin; split <;> exact ⟨rfl, rfl, rfl⟩
  | _ => exact ⟨rfl, rfl, rfl⟩

/-- A pin step takes nothing from the ports (R33: a request presented meanwhile stays with the host). -/
theorem pinStep_hostSide (s : State) : sameHostSide s (pinStep s) := by
  unfold pinStep
  split
  · exact ⟨rfl, rfl, rfl⟩
  · next p _ =>
    split
    · exact s.finish_hostSide ..
    · next t rest _ =>
      have htxn := s.txnPin_hostSide p t
      simp only
      split
      · exact htxn
      · split
        · exact htxn.trans (State.finish_hostSide ..)
        · exact htxn

theorem State.begin_hostSide (s : State) (i : Instr) : sameHostSide s (s.begin i) := by
  by_cases h : s.check i = .ok
  · rw [State.begin_of_check_ok h]; exact ⟨rfl, rfl, rfl⟩
  · rw [State.begin_of_check_ne_ok h]; exact ⟨rfl, rfl, rfl⟩

theorem tick_of_busy {s : State} {p : Progress} (hbusy : s.phase = .busy p) : tick s = pinStep s := by
  simp only [tick, hbusy]

/-- A tick of a ready block with a request presented takes that request from the host, whatever its word (R33). -/
theorem tick_host_of_idle {s : State} {r : HostRequest} {rest : List HostRequest} (hidle : s.phase = .idle) (hhost : s.host = r :: rest) :
    (tick s).host = rest := by
  cases hdec : decode r.word with
  | error e => simp only [tick, hidle, hhost, hdec, State.raiseStatus_host, State.accept_host]
  | ok i =>
    obtain ⟨-, hkept, -⟩ := (s.accept r rest).begin_hostSide i
    simpa only [tick, hidle, hhost, hdec, State.accept_host] using hkept

/-- Settles O4: a busy port refuses the step and a pin step leaves the host's side; a ready one takes the head of the host's list. -/
theorem portAcceptsOnlyWhenReady : Obligations.PortAcceptsOnlyWhenReady := by
  unfold Obligations.PortAcceptsOnlyWhenReady
  refine ⟨rfl, State.ready_eq_one_iff, fun s hzero => ?_, fun s r rest hready hhost => ?_⟩
  · obtain ⟨p, hbusy⟩ := State.busy_of_ready_eq_zero hzero
    obtain ⟨-, hhost, hport⟩ := pinStep_hostSide s
    exact ⟨step_of_busy hbusy, tick_of_busy hbusy ▸ ⟨hhost, hport⟩⟩
  · exact tick_host_of_idle (s.ready_eq_one_iff.1 hready) hhost

theorem exec_phase {i : Instr} {s t : State} (h : exec i s = .next t) : t.phase = .idle := by
  obtain rfl | ⟨v, rfl⟩ := exec_next_cases h
  · rfl
  · exact State.finish_phase ..

/-- Settles O12: no request is refused, and each ends with PHASE at IDLE, which is READY = 1. -/
theorem everyRequestRunsToCompletion : Obligations.EveryRequestRunsToCompletion := by
  unfold Obligations.EveryRequestRunsToCompletion
  intro i s
  have hex := exec_eq_pinRun i s
  exact ⟨_, hex, exec_phase hex, (State.ready_eq_one_iff _).2 (exec_phase hex)⟩

/-! ### What transactions leave, and what they add to TRACE -/

theorem State.runTxn_hostSide (s : State) (v : Byte) (t : Txn) : sameHostSide s (s.runTxn v t) := by
  cases t <;> exact ⟨rfl, rfl, rfl⟩

theorem State.runTxns_hostSide (s : State) (v : Byte) (ts : List Txn) : sameHostSide s (s.runTxns v ts).1 := by
  induction ts generalizing s v with
  | nil => exact ⟨rfl, rfl, rfl⟩
  | cons t ts ih => exact (s.runTxn_hostSide v t).trans (ih ..)

theorem State.runTxn_trace_prefix (s : State) (v : Byte) (t : Txn) : s.trace <+: (s.runTxn v t).trace := by
  cases t <;> exact List.prefix_append ..

theorem State.runTxns_trace_prefix (s : State) (v : Byte) (ts : List Txn) : s.trace <+: (s.runTxns v ts).1.trace := by
  induction ts generalizing s v with
  | nil => exact List.prefix_rfl
  | cons t ts ih => exact (s.runTxn_trace_prefix v t).trans (ih ..)

@[simp] theorem State.finish_trace (s : State) (i : Instr) (v : Byte) : (s.finish i v).trace = s.trace := by
  cases i with
  | putChar c => simp only [State.finish]; split <;> rfl
  | _ => rfl

theorem exec_hostSide {i : Instr} {s t : State} (h : exec i s = .next t) : sameHostSide s t := by
  obtain rfl | ⟨v, rfl⟩ := exec_next_cases h
  · exact ⟨rfl, rfl, rfl⟩
  · exact (s.runTxns_hostSide ..).trans (State.finish_hostSide ..)

theorem exec_trace_prefix {i : Instr} {s t : State} (h : exec i s = .next t) : s.trace <+: t.trace := by
  obtain rfl | ⟨v, rfl⟩ := exec_next_cases h
  · exact List.prefix_rfl
  · rw [State.finish_trace]; exact s.runTxns_trace_prefix ..

/-- Settles O16: every transaction keeps the parameters and only appends to TRACE, and nothing else of a step touches either. -/
theorem stepsExtendTheTraceAndKeepTheParameters : Obligations.StepsExtendTheTraceAndKeepTheParameters := by
  unfold Obligations.StepsExtendTheTraceAndKeepTheParameters
  intro s t h
  suffices t.cfg = s.cfg ∧ s.trace <+: t.trace from ⟨this.1, this.2.imp fun _ => Eq.symm⟩
  obtain rfl | ⟨r, rest, rfl⟩ | ⟨r, rest, i, hex⟩ := step_cases h
  · exact ⟨rfl, List.prefix_rfl⟩
  · exact ⟨rfl, List.prefix_rfl⟩
  · exact ⟨(exec_hostSide hex).1, exec_trace_prefix (s := s.accept r rest) hex⟩

/-! ### RDOUT -/

theorem sameRdout.trans {s t u : State} (hst : sameRdout s t) (htu : sameRdout t u) : sameRdout s u :=
  ⟨htu.1.trans hst.1, htu.2.trans hst.2⟩

theorem State.hostRdout_of_sameRdout {s t : State} (h : sameRdout s t) : t.hostRdout = s.hostRdout := by
  simp only [State.hostRdout, h.1, h.2]

theorem State.runTxns_rdout (s : State) (v : Byte) (ts : List Txn) : sameRdout s (s.runTxns v ts).1 := by
  induction ts generalizing s v with
  | nil => exact ⟨rfl, rfl⟩
  | cons t ts ih =>
    have hone : sameRdout s (s.runTxn v t) := by cases t <;> exact ⟨rfl, rfl⟩
    exact hone.trans (ih ..)

theorem State.finish_rdout (s : State) {i : Instr} (v : Byte) (h : i ≠ .rdata) : sameRdout s (s.finish i v) := by
  cases i with
  | rdata => exact absurd rfl h
  | putChar c => simp only [State.finish]; split <;> exact ⟨rfl, rfl⟩
  | _ => exact ⟨rfl, rfl⟩

/-- A request other than RDATA leaves RDOUT, CLEAR_PIXEL's read among its transactions (R25). -/
theorem exec_rdout {i : Instr} {s t : State} (hne : i ≠ .rdata) (h : exec i s = .next t) : sameRdout s t := by
  obtain rfl | ⟨v, rfl⟩ := exec_next_cases h
  · exact ⟨rfl, rfl⟩
  · exact (s.runTxns_rdout ..).trans (State.finish_rdout _ v hne)

/-- Settles O15: no transaction writes RDOUT, and of the ends of requests RDATA's alone does, with the byte its `Read` event carries. -/
theorem onlyRdataWritesRdout : Obligations.OnlyRdataWritesRdout := by
  unfold Obligations.OnlyRdataWritesRdout
  refine ⟨rfl, fun s => ⟨_, s.readValue, rfl, rfl, rfl, rfl⟩, fun i s t hne h => ?_⟩
  exact ⟨exec_rdout hne h, State.hostRdout_of_sameRdout (exec_rdout hne h)⟩

/-! ### The invariant of a request boundary -/

/-- The clauses of the invariant about the pins and the environment: they hold between any two bus cycles, inside a request too. -/
structure State.BusInv (s : State) : Prop where
  pins : s.pinsSet = true → s.pins.idle = true
  ctrl : s.ctrl.wf s.cfg = true
  booted : s.ctrl ≠ .unspecified → s.pinsSet = true ∧ initBoots s.cfg = true

theorem State.Inv.busInv {s : State} (h : s.Inv) : s.BusInv := ⟨h.pins, h.ctrl, h.booted⟩

theorem State.BusInv.busWrite {s : State} (h : s.BusInv) (k : BusKind) (b : Byte) : (s.busWrite k b).BusInv where
  pins := State.busWrite_idle k b h.pins
  ctrl := Ctrl.wf_onWrite s.cfg k b h.ctrl
  booted hspec := h.booted fun hun => hspec (by simp [hun])

theorem State.BusInv.busRead {s : State} (h : s.BusInv) : s.busRead.BusInv where
  pins := State.busRead_idle h.pins
  ctrl := Ctrl.wf_afterRead s.cfg h.ctrl
  booted hspec := h.booted fun hun => hspec (by simp [hun])

/-- A bus cycle, and not one of INIT's lifecycle events. -/
def Txn.isCycle : Txn → Bool
  | .write _ _ | .read | .writeBack _ => true
  | .pinSetup | .resAssert | .resRelease | .delay _ => false

/-- Of the requests, INIT alone has lifecycle events among its transactions. -/
theorem State.txns_all_isCycle (s : State) {i : Instr} (h : i ≠ .init) : (s.txns i).all Txn.isCycle = true := by
  cases i with
  | init => exact absurd rfl h
  | putChar c => simp only [State.txns]; split <;> simp [addrSeqTxns, Txn.isCycle]
  | _ => simp [State.txns, screenTxns, addrSeqTxns, Txn.isCycle]

theorem State.BusInv.runTxn {s : State} (h : s.BusInv) (v : Byte) {t : Txn} (hcycle : t.isCycle = true) : (s.runTxn v t).BusInv := by
  cases t with
  | write k b => exact h.busWrite k b
  | read => exact h.busRead
  | writeBack mask => exact h.busWrite .data _
  | _ => simp [Txn.isCycle] at hcycle

theorem State.BusInv.runTxns {s : State} (h : s.BusInv) (v : Byte) {ts : List Txn} (hcycles : ts.all Txn.isCycle = true) :
    (s.runTxns v ts).1.BusInv := by
  induction ts generalizing s v with
  | nil => exact h
  | cons t ts ih =>
    rw [List.all_cons, Bool.and_eq_true] at hcycles
    exact ih (h.runTxn v hcycles.1) _ hcycles.2

theorem State.runTxns_col (s : State) (v : Byte) (ts : List Txn) : (s.runTxns v ts).1.col = s.col := by
  induction ts generalizing s v with
  | nil => rfl
  | cons t ts ih =>
    have hone : (s.runTxn v t).col = s.col := by cases t <;> rfl
    exact (ih ..).trans hone

/-- Where a character does not wrap, COL has room to move on (R151, R159). -/
theorem col_succ_le_of_not_wraps {c : Byte} {col : BitVec 5} (h : ¬ wraps c col = true) : (col + 1#5).toNat ≤ Config.cap := by
  have hlt : col.toNat < Config.cap := by simp only [wraps, Bool.or_eq_true, decide_eq_true_eq] at h; omega
  simp only [Config.cap] at hlt ⊢
  bv_omega

/-- A line start, or a column that was legal, is a legal column. -/
theorem State.gotoLineCursor_col_le {s : State} (l : BitVec 3) (h : s.col.toNat ≤ Config.cap) :
    (s.gotoLineCursor l).col.toNat ≤ Config.cap := by
  rw [State.gotoLineCursor_col]
  split
  · exact Nat.zero_le _
  · exact h

/-- The end of every request but INIT keeps COL legal and touches neither the pins nor the environment. -/
theorem State.BusInv.inv_finish {s : State} (h : s.BusInv) (hcol : s.col.toNat ≤ Config.cap) {i : Instr} (v : Byte) (hne : i ≠ .init) :
    (s.finish i v).Inv := by
  cases i with
  | init => exact absurd rfl hne
  | gotoLine l => exact ⟨s.gotoLineCursor_col_le (l.setWidth 3) hcol, rfl, h.pins, h.ctrl, h.booted⟩
  | putChar c =>
    by_cases hw : wraps c s.col = true
    · rw [State.finish_putChar_of_wraps v hw]
      exact ⟨State.gotoLineCursor_col_le (s.line + 1#3) (Nat.zero_le _), rfl, h.pins, h.ctrl, h.booted⟩
    · rw [State.finish_putChar_of_not_wraps v hw]
      exact ⟨col_succ_le_of_not_wraps hw, rfl, h.pins, h.ctrl, h.booted⟩
  | _ => exact ⟨hcol, rfl, h.pins, h.ctrl, h.booted⟩

theorem initBoots_of_whenInitCompletes {cfg : Config} (h : Ctrl.whenInitCompletes cfg ≠ .unspecified) : initBoots cfg = true := by
  by_contra hno
  exact h (Ctrl.whenInitCompletes_unspecified cfg (by simpa using hno))

/-- The end of an INIT: the environment is legal whatever it was, and it is specified only where INIT boots it (R74). -/
theorem State.inv_initDone {s : State} (hcol : s.col.toNat ≤ Config.cap) (hset : s.pinsSet = true) (hidle : s.pins.idle = true) :
    s.initDone.complete.Inv :=
  ⟨hcol, rfl, fun _ => hidle, Ctrl.wf_whenInitCompletes s.cfg, fun hspec => ⟨hset, initBoots_of_whenInitCompletes hspec⟩⟩

/-- INIT sets the pins and the environment up from whatever they were, and leaves COL (R190 to R192). -/
theorem exec_init_inv {s t : State} (hcol : s.col.toNat ≤ Config.cap) (h : exec .init s = .next t) : t.Inv := by
  obtain rfl := Host.Outcome.next.inj h
  have hpulse : s.pinSetup.resetPulse.pins.idle = true := by rw [State.resetPulse_pins _ rfl]; rfl
  have hidle := State.clearScreen_idle (State.busWriteAll_idle .cmd s.cfg.initScript fun _ => hpulse)
  exact State.inv_initDone (by simpa using hcol) (by simp) (hidle (by simp))

theorem exec_keeps_inv {i : Instr} {s t : State} (hinv : s.Inv) (h : exec i s = .next t) : t.Inv := by
  by_cases hi : i = .init
  · exact exec_init_inv hinv.col (hi ▸ h)
  · obtain rfl | ⟨v, rfl⟩ := exec_next_cases h
    · exact ⟨hinv.col, rfl, hinv.pins, hinv.ctrl, hinv.booted⟩
    · have hbus := hinv.busInv.runTxns 0#8 (s.txns_all_isCycle hi)
      exact hbus.inv_finish (by rw [State.runTxns_col]; exact hinv.col) v hi

/-- Settles O21: each bus cycle keeps the clauses about the pins and the environment, the end of a request keeps COL's, and INIT sets the former
up anew. -/
theorem everyStepKeepsTheInvariant : Obligations.EveryStepKeepsTheInvariant := by
  unfold Obligations.EveryStepKeepsTheInvariant
  intro s t hinv h
  obtain rfl | ⟨r, rest, rfl⟩ | ⟨r, rest, i, hex⟩ := step_cases h
  · exact hinv
  · exact ⟨hinv.col, rfl, hinv.pins, hinv.ctrl, hinv.booted⟩
  · exact exec_keeps_inv (s := s.accept r rest) ⟨hinv.col, hinv.idle, hinv.pins, hinv.ctrl, hinv.booted⟩ hex

/-- Settles O22: PHASE is IDLE, so the step waits, turns an illegal word away, or runs a request, and a request completes. -/
theorem stepsFromTheInvariantNeverStop : Obligations.StepsFromTheInvariantNeverStop := by
  unfold Obligations.StepsFromTheInvariantNeverStop
  intro s hinv
  cases hhost : s.host with
  | nil => exact ⟨s, step_of_idle_nil hinv.idle hhost⟩
  | cons r rest =>
    cases hdec : decode r.word with
    | error e => exact ⟨_, step_of_decode_error hinv.idle hhost hdec⟩
    | ok i =>
      obtain ⟨t, hex, -⟩ := everyRequestRunsToCompletion i (s.accept r rest)
      exact ⟨t, (step_of_decode_ok hinv.idle hhost hdec).trans hex⟩

/-- Settles O20: PINS has no value yet and the reference state is unspecified, so the clauses about them ask nothing. -/
theorem resetMeetsTheInvariant : Obligations.ResetMeetsTheInvariant := by
  unfold Obligations.ResetMeetsTheInvariant
  exact {
    col := Nat.zero_le _
    idle := rfl
    pins := fun hset => absurd hset Bool.false_ne_true
    ctrl := rfl
    booted := fun hspec => absurd rfl hspec }

/-! ### Fixed values -/

/-- Settles O1: each register of the reset table is a field of `State.reset`, or its view. -/
theorem resetPutsEveryRegisterAtItsValue : Obligations.ResetPutsEveryRegisterAtItsValue := by
  unfold Obligations.ResetPutsEveryRegisterAtItsValue
  exact ⟨rfl, rfl, rfl, rfl, rfl, rfl, rfl, rfl, rfl⟩

theorem Pins.idle_iff {p : Pins} :
    p.idle = true ↔ p.cs = false ∧ p.wr = false ∧ p.rd = false ∧ p.res = false ∧ p.ddir = .output := by
  simp [Pins.idle, and_assoc]

/-- Settles O27: at the idle levels no control line is asserted, and a line that is not stands at the polarity's deasserted level. -/
theorem idleLinesStandDeasserted : Obligations.IdleLinesStandDeasserted := by
  unfold Obligations.IdleLinesStandDeasserted
  intro p activeLow hidle
  obtain ⟨hcs, hwr, hrd, hres, -⟩ := Pins.idle_iff.1 hidle
  simp [Pins.levels, hcs, hwr, hrd, hres]

end Sys2Proof.Machine
end

section
/-! PROOFS. Display memory (20_memory.md R50, R66, R71, R72): the canonical form is determined by what it reads as, data bytes land at successive
addresses (`Memory.writeFrom`), and the pointer that writes them moves along a row, or over the whole screen (`Controller.onScreen`). -/

namespace Sys2Proof.Machine

/-! ### The canonical form -/

theorem Memory.rising_cons {lo k : Nat} {v : Byte} {m : Memory} :
    Memory.risingFrom lo ((k, v) :: m) = true ↔ lo ≤ k ∧ m.risingFrom (k + 1) = true := by
  simp [Memory.risingFrom]

theorem Memory.entries_cons {k : Nat} {v : Byte} {m : Memory} :
    List.all ((k, v) :: m) Memory.entryOK = true ↔
      (k < Config.displayBytes ∧ v ≠ Memory.unlisted) ∧ m.all Memory.entryOK = true := by
  simp [Memory.entryOK]

theorem Memory.wf_iff {m : Memory} : m.wf = true ↔ m.risingFrom 0 = true ∧ m.all Memory.entryOK = true := by
  simp [Memory.wf]

@[simp] theorem Memory.read_cons_same (k : Nat) (v : Byte) (m : Memory) : Memory.read ((k, v) :: m) k = v := if_pos rfl

theorem Memory.read_cons_other {k a : Nat} (v : Byte) (m : Memory) (h : a ≠ k) : Memory.read ((k, v) :: m) a = m.read a := if_neg h

/-- A listed byte differs from what a memory whose addresses all lie above it reads there. -/
theorem Memory.read_head_ne {k lo : Nat} {v : Byte} {m n : Memory} (hv : v ≠ Memory.unlisted) (hlo : k < lo)
    (hn : n.risingFrom lo = true) : Memory.read ((k, v) :: m) k ≠ n.read k := by
  rwa [Memory.read_cons_same, Memory.read_below hlo hn]

/-- Canonical memories that read alike agree entry by entry: where the head addresses differ, the lower one reads differently. -/
theorem Memory.ext_of_rising {lo : Nat} {m n : Memory} (hm : m.risingFrom lo = true) (hn : n.risingFrom lo = true)
    (hme : m.all Memory.entryOK = true) (hne : n.all Memory.entryOK = true)
    (halike : ∀ a, a < Config.displayBytes → m.read a = n.read a) : m = n := by
  induction m generalizing lo n with
  | nil =>
    cases n with
    | nil => rfl
    | cons e n =>
      obtain ⟨⟨hk, hv⟩, -⟩ := Memory.entries_cons.1 hne
      exact absurd (halike e.1 hk).symm (by simpa [Memory.read] using hv)
  | cons d m ih =>
    obtain ⟨k, v⟩ := d
    obtain ⟨⟨hk, hv⟩, hmte⟩ := Memory.entries_cons.1 hme
    cases n with
    | nil => exact absurd (halike k hk) (by simpa [Memory.read] using hv)
    | cons e n =>
      obtain ⟨k', v'⟩ := e
      obtain ⟨⟨hk', hv'⟩, hnte⟩ := Memory.entries_cons.1 hne
      obtain ⟨-, hmt⟩ := Memory.rising_cons.1 hm
      obtain ⟨-, hnt⟩ := Memory.rising_cons.1 hn
      obtain hlt | rfl | hgt := Nat.lt_trichotomy k k'
      · exact absurd (halike k hk) (Memory.read_head_ne hv hlt (Memory.rising_cons.2 ⟨Nat.le_refl _, hnt⟩))
      · have hhead : v = v' := by simpa using halike k hk
        have htail : m = n := by
          refine ih hmt hnt hmte hnte fun a ha => ?_
          by_cases hak : a = k
          · rw [hak, Memory.read_below k.lt_succ_self hmt, Memory.read_below k.lt_succ_self hnt]
          · simpa only [Memory.read_cons_other _ _ hak] using halike a ha
        rw [hhead, htail]
      · exact absurd (halike k' hk').symm (Memory.read_head_ne hv' hgt (Memory.rising_cons.2 ⟨Nat.le_refl _, hmt⟩))

/-- Settles O23: two rising lists of bytes other than an unlisted one agree at the head, since the lower head address would read differently. -/
theorem canonicalMemoriesThatReadAlikeAreEqual : Obligations.CanonicalMemoriesThatReadAlikeAreEqual := by
  unfold Obligations.CanonicalMemoriesThatReadAlikeAreEqual
  intro m n hm hn halike
  obtain ⟨hmr, hme⟩ := Memory.wf_iff.1 hm
  obtain ⟨hnr, hne⟩ := Memory.wf_iff.1 hn
  exact Memory.ext_of_rising hmr hnr hme hne halike

/-! ### Bytes at successive addresses -/

/-- Memory after bytes written one after another from address `a` on. -/
def Memory.writeFrom : Memory → Nat → List Byte → Memory
  | m, _, [] => m
  | m, a, b :: bs => (m.write a b).writeFrom (a + 1) bs

theorem Memory.read_writeFrom_outside {a a' : Nat} {bs : List Byte} (m : Memory) (h : a' < a ∨ a + bs.length ≤ a') :
    (m.writeFrom a bs).read a' = m.read a' := by
  induction bs generalizing m a with
  | nil => rfl
  | cons b bs ih =>
    rw [List.length_cons] at h
    rw [Memory.writeFrom, ih _ (by omega), Memory.read_write_other (by omega)]

theorem Memory.wf_writeFrom {m : Memory} {a : Nat} {bs : List Byte} (h : a + bs.length ≤ Config.displayBytes) (hm : m.wf = true) :
    (m.writeFrom a bs).wf = true := by
  induction bs generalizing m a with
  | nil => exact hm
  | cons b bs ih =>
    rw [List.length_cons] at h
    exact ih (by omega) (Memory.wf_write (by omega) b hm)

theorem Memory.read_writeFrom {m : Memory} {a i : Nat} {bs : List Byte} (h : a + bs.length ≤ Config.displayBytes) (hm : m.wf = true)
    (hi : i < bs.length) : some ((m.writeFrom a bs).read (a + i)) = bs[i]? := by
  induction bs generalizing m a i with
  | nil => exact absurd hi (Nat.not_lt_zero i)
  | cons b bs ih =>
    rw [List.length_cons] at h hi
    cases i with
    | zero =>
      rw [Memory.writeFrom, Memory.read_writeFrom_outside _ (by omega), Nat.add_zero, Memory.read_write_same a b hm]
      rfl
    | succ i =>
      have hrest := ih (a := a + 1) (i := i) (by omega) (Memory.wf_write (a := a) (by omega) b hm) (by omega)
      rwa [Nat.add_right_comm, Nat.add_assoc] at hrest

/-! ### The pointer (R72) -/

theorem Controller.advance_of_end {cfg : Config} {c : Controller} (h : c.cptr = c.cend) :
    Controller.advance cfg c =
      { c with cptr := if cfg.ctrlWrapCol = .zero then 0#7 else c.cstart, pptr := c.pptr + 1#3 } := by
  unfold Controller.advance
  rw [if_pos h]
  cases cfg.ctrlWrapCol <;> rfl

theorem Controller.advance_of_not_end {cfg : Config} {c : Controller} (h : c.cptr ≠ c.cend) :
    Controller.advance cfg c = { c with cptr := c.cptr + 1#7 } := if_neg h

/-- Where one advance takes the pointer. -/
theorem Controller.advance_pointer (cfg : Config) (c : Controller) :
    if c.cptr = c.cend then
      (Controller.advance cfg c).cptr = (if cfg.ctrlWrapCol = .zero then 0#7 else c.cstart) ∧
        (Controller.advance cfg c).pptr.toNat = (c.pptr.toNat + 1) % 8
    else (Controller.advance cfg c).cptr = c.cptr + 1#7 ∧ (Controller.advance cfg c).pptr = c.pptr := by
  split
  · next h => rw [Controller.advance_of_end h]; exact ⟨rfl, BitVec.toNat_add ..⟩
  · next h => rw [Controller.advance_of_not_end h]; exact ⟨rfl, rfl⟩

/-! ### Data bytes along a row -/

@[simp] theorem Ctrl.onWrites_nil (cfg : Config) (k : BusKind) (x : Ctrl) : Ctrl.onWrites cfg k [] x = x := rfl

@[simp] theorem Ctrl.onWrites_cons (cfg : Config) (k : BusKind) (b : Byte) (bs : List Byte) (x : Ctrl) :
    Ctrl.onWrites cfg k (b :: bs) x = Ctrl.onWrites cfg k bs (x.onWrite cfg k b) := rfl

theorem Ctrl.onWrites_append (cfg : Config) (k : BusKind) (xs ys : List Byte) (x : Ctrl) :
    Ctrl.onWrites cfg k (xs ++ ys) x = Ctrl.onWrites cfg k ys (Ctrl.onWrites cfg k xs x) := List.foldl_append

/-- A row of data bytes that ends before column CEND: the bytes lie from the pointer on, and the pointer is after them. -/
theorem Ctrl.onWrites_data_row (cfg : Config) {c : Controller} {bs : List Byte} (hpend : c.pend = none)
    (hfit : c.cptr.toNat + bs.length ≤ c.cend.toNat) :
    Ctrl.onWrites cfg .data bs (.specified c) =
      .specified { c with mem := c.mem.writeFrom c.addr bs, cptr := c.cptr + BitVec.ofNat 7 bs.length } := by
  induction bs generalizing c with
  | nil => simp [Memory.writeFrom]
  | cons b bs ih =>
    rw [List.length_cons] at hfit
    have hlt := c.cend.isLt
    have hnext : (c.cptr + 1#7).toNat = c.cptr.toNat + 1 := by bv_omega
    have hin : c.cptr ≠ c.cend := by rintro heq; rw [heq] at hfit; omega
    have hwrite : Ctrl.onWrite cfg .data b (.specified c) = .specified { c with mem := c.mem.write c.addr b, cptr := c.cptr + 1#7 } := by
      rw [Ctrl.onWrite_data cfg b hpend]
      exact congrArg _ (Controller.advance_of_not_end hin)
    have haddr : displayAddr c.pptr.toNat (c.cptr.toNat + 1) = c.addr + 1 := rfl
    rw [Ctrl.onWrites_cons, hwrite]
    refine (ih (c := { c with mem := c.mem.write c.addr b, cptr := c.cptr + 1#7 }) hpend (by simp only [hnext]; omega)).trans ?_
    simp only [Controller.addr, hnext, haddr, Memory.writeFrom, List.length_cons, BitVec.add_assoc, Nat.add_comm bs.length,
      BitVec.ofNat_add]

/-! ### Data bytes over the whole screen -/

/-- A controller with the full column range and no command pending, its pointer at display address `a`. -/
def Controller.onScreen (m : Memory) (a : Nat) : Controller where
  mem := m
  cptr := BitVec.ofNat 7 a
  pptr := BitVec.ofNat 3 (a / 128)
  cstart := 0#7
  cend := 127#7
  pend := none

theorem Controller.addr_onScreen (m : Memory) {a : Nat} (h : a < Config.displayBytes) : (Controller.onScreen m a).addr = a := by
  simp only [Config.displayBytes] at h
  simp only [Controller.addr, Controller.onScreen, displayAddr, BitVec.toNat_ofNat]
  omega

/-- Under the full column range the pointer runs over the pages, wherever column CEND wraps to. -/
theorem Controller.advance_onScreen (cfg : Config) (m : Memory) (a : Nat) :
    Controller.advance cfg (Controller.onScreen m a) = Controller.onScreen m (a + 1) := by
  by_cases hend : (Controller.onScreen m a).cptr = (Controller.onScreen m a).cend
  · rw [Controller.advance_of_end hend]
    have hmod : a % 128 = 127 := by simpa [Controller.onScreen, BitVec.ofNat] using congrArg BitVec.toNat hend
    have hcol : BitVec.ofNat 7 (a + 1) = 0#7 := by apply BitVec.eq_of_toNat_eq; simp; omega
    have hpage : (a + 1) / 128 = a / 128 + 1 := by omega
    simp only [Controller.onScreen, ite_self, hcol, hpage, BitVec.ofNat_add]
  · rw [Controller.advance_of_not_end hend]
    have hmod : a % 128 ≠ 127 := fun h => hend (by apply BitVec.eq_of_toNat_eq; simpa [Controller.onScreen] using h)
    have hpage : (a + 1) / 128 = a / 128 := by omega
    simp only [Controller.onScreen, hpage, BitVec.ofNat_add]

theorem Ctrl.onWrites_data_onScreen (cfg : Config) {m : Memory} {a : Nat} {bs : List Byte} (h : a + bs.length ≤ Config.displayBytes) :
    Ctrl.onWrites cfg .data bs (.specified (Controller.onScreen m a)) =
      .specified (Controller.onScreen (m.writeFrom a bs) (a + bs.length)) := by
  induction bs generalizing m a with
  | nil => rfl
  | cons b bs ih =>
    rw [List.length_cons] at h
    have hwrite : Ctrl.onWrite cfg .data b (.specified (Controller.onScreen m a)) =
        .specified (Controller.onScreen (m.write a b) (a + 1)) := by
      rw [Ctrl.onWrite_data cfg b rfl, Controller.addr_onScreen m (by omega)]
      exact congrArg _ (Controller.advance_onScreen cfg (m.write a b) a)
    rw [Ctrl.onWrites_cons, hwrite, ih (by omega), Memory.writeFrom, List.length_cons, Nat.add_right_comm, Nat.add_assoc]

/-- After the last display byte the pointer is back at (0, 0). -/
theorem Controller.onScreen_displayBytes (m : Memory) : Controller.onScreen m Config.displayBytes = Controller.onScreen m 0 := rfl

end Sys2Proof.Machine
end

section
/-! PROOFS. Command bytes at the reference controller (20_memory.md R67 to R70): the bytes frame into commands, the commands are executed
(`Ctrl.executeAll`), and whether one loses the reference state does not depend on the controller. The addressing sequence and the scripts of INIT
are read that way. -/

namespace Sys2Proof

variable {cfg : Config}

/-! ### The conditions on the parameters (R76, 30_encoding.md R98, R99) -/

/-- The conditions on the parameters, each as the fact it stands for. -/
theorem Config.wellFormed_iff :
    cfg.wellFormed = true ↔ cfg.cmdPageStart &&& 7#8 = 0#8 ∧ cfg.argc cfg.cmdSetColumn = 2 ∧
      ∀ p < 8, cfg.argc (cfg.cmdPageStart ||| BitVec.ofNat 8 p) = 0 := by
  simp [Config.wellFormed, Config.pageStartLowBitsZero, Config.setColumnTakesTwo, Config.pageStartTakesNone, and_assoc]

/-- The command bytes and the table of R76 meet the conditions on the parameters. -/
theorem Config.wellFormed_of_defaultArgc (hcol : cfg.cmdSetColumn = 0x21#8) (hpage : cfg.cmdPageStart = 0xB0#8)
    (hargc : cfg.ctrlArgc = Config.defaultArgc) : cfg.wellFormed = true := by
  rw [Config.wellFormed_iff, hcol, hpage]
  simp only [Config.argc, hargc]
  decide

end Sys2Proof

namespace Sys2Proof.Machine

/-! ### One command byte -/

/-- A command byte either leaves a command pending or completes one and leaves none. -/
theorem frame_pending_or_command (cfg : Config) (pend : Option Pending) (b : Byte) :
    (∃ p, frame cfg pend b = (some p, none)) ∨ ∃ cmd args, frame cfg pend b = (none, some (cmd, args)) := by
  obtain ⟨_, -, -, h⟩ | ⟨_, -, -, h⟩ | ⟨-, -, h⟩ | ⟨-, -, h⟩ := frame_cases cfg pend b
  · exact .inr ⟨_, _, h⟩
  · exact .inl ⟨_, h⟩
  · exact .inr ⟨_, _, h⟩
  · exact .inl ⟨_, h⟩

variable {cfg : Config}

theorem Ctrl.onWrite_cmd_of_pending {c : Controller} {b : Byte} {pend : Option Pending} (h : frame cfg c.pend b = (pend, none)) :
    Ctrl.onWrite cfg .cmd b (.specified c) = .specified { c with pend := pend } := by
  simp only [Ctrl.onWrite, Controller.onCmd, h]

theorem Ctrl.onWrite_cmd_of_command {c : Controller} {b cmd : Byte} {args : List Byte} {pend : Option Pending}
    (h : frame cfg c.pend b = (pend, some (cmd, args))) :
    Ctrl.onWrite cfg .cmd b (.specified c) = Controller.execute cfg { c with pend := pend } cmd args := by
  simp only [Ctrl.onWrite, Controller.onCmd, h]

theorem framedCommands_of_pending {pend pend' : Option Pending} {b : Byte} (bs : List Byte) (h : frame cfg pend b = (pend', none)) :
    framedCommands cfg pend (b :: bs) = framedCommands cfg pend' bs := by
  cases pend <;> simp only [framedCommands, h]

theorem framedCommands_of_command {pend pend' : Option Pending} {b : Byte} {c : Byte × List Byte} (bs : List Byte)
    (h : frame cfg pend b = (pend', some c)) :
    framedCommands cfg pend (b :: bs) = (framedCommands cfg pend' bs).map (c :: ·) := by
  cases pend <;> simp only [framedCommands, h]

theorem framedCommands_nil {pend : Option Pending} {cmds : List (Byte × List Byte)} (h : framedCommands cfg pend [] = some cmds) :
    pend = none ∧ cmds = [] := by
  cases pend with
  | none => exact ⟨rfl, (Option.some.inj h).symm⟩
  | some p => simp [framedCommands] at h

/-! ### One command -/

/-- A command leaves display memory and PEND, or it loses the state. -/
theorem Controller.execute_keeps {c c' : Controller} {cmd : Byte} {args : List Byte}
    (h : Controller.execute cfg c cmd args = .specified c') : c'.mem = c.mem ∧ c'.pend = c.pend := by
  obtain ⟨_, _, -, -, -, -, hex⟩ | ⟨-, -, hex⟩ | hex | hex := execute_cases cfg c cmd args
  all_goals rw [hex] at h; cases h
  all_goals exact ⟨rfl, rfl⟩

theorem Controller.execute_unspecified_iff (c d : Controller) (cmd : Byte) (args : List Byte) :
    Controller.execute cfg c cmd args = .unspecified ↔ Controller.execute cfg d cmd args = .unspecified := by
  unfold Controller.execute Controller.setColumn
  split
  · split
    · simp
    · split <;> simp
  · split
    · split <;> simp
    · split <;> simp
  · split <;> simp

/-- A command that is neither set column nor page start changes nothing (R70). -/
theorem Controller.execute_other {c : Controller} {cmd : Byte} (args : List Byte) (hcol : cmd ≠ cfg.cmdSetColumn)
    (hpage : isPageStart cfg cmd = false) : Controller.execute cfg c cmd args = .specified c := by
  unfold Controller.execute
  split <;> simp [hcol, hpage]

theorem Controller.execute_setColumn (c : Controller) (s e : Byte) :
    Controller.execute cfg c cfg.cmdSetColumn [s, e] = c.setColumn s e := if_pos rfl

theorem Controller.execute_pageStart {c : Controller} {cmd : Byte} (h : isPageStart cfg cmd = true) :
    Controller.execute cfg c cmd [] = .specified { c with pptr := cmd.setWidth 3 } := if_pos h

/-- A command no controller loses its state to (R75). -/
def commandInRange (cfg : Config) (cmd : Byte × List Byte) : Prop :=
  ∀ c : Controller, Controller.execute cfg c cmd.1 cmd.2 ≠ .unspecified

/-! ### A list of commands -/

/-- A framed command at the environment (R68 to R70). -/
def Ctrl.execute (cfg : Config) (x : Ctrl) (cmd : Byte × List Byte) : Ctrl :=
  match x with
  | .unspecified => .unspecified
  | .specified c => Controller.execute cfg c cmd.1 cmd.2

/-- Framed commands at the environment, one after another. -/
def Ctrl.executeAll (cfg : Config) (cmds : List (Byte × List Byte)) (x : Ctrl) : Ctrl := cmds.foldl (Ctrl.execute cfg) x

@[simp] theorem Ctrl.executeAll_nil (x : Ctrl) : Ctrl.executeAll cfg [] x = x := rfl

@[simp] theorem Ctrl.executeAll_cons (cmd : Byte × List Byte) (cmds : List (Byte × List Byte)) (c : Controller) :
    Ctrl.executeAll cfg (cmd :: cmds) (.specified c) = Ctrl.executeAll cfg cmds (Controller.execute cfg c cmd.1 cmd.2) := rfl

@[simp] theorem Ctrl.executeAll_unspecified (cmds : List (Byte × List Byte)) : Ctrl.executeAll cfg cmds .unspecified = .unspecified := by
  induction cmds with
  | nil => rfl
  | cons cmd cmds ih => exact ih

/-- Command bytes that frame completely have the effect of their commands. -/
theorem Ctrl.onWrites_cmd_of_framed {c : Controller} {bs : List Byte} {cmds : List (Byte × List Byte)}
    (h : framedCommands cfg c.pend bs = some cmds) :
    Ctrl.onWrites cfg .cmd bs (.specified c) = Ctrl.executeAll cfg cmds (.specified { c with pend := none }) := by
  induction bs generalizing c cmds with
  | nil =>
    obtain ⟨hpend, rfl⟩ := framedCommands_nil h
    simp [← hpend]
  | cons b bs ih =>
    rw [Ctrl.onWrites_cons]
    obtain ⟨p, hf⟩ | ⟨cmd, args, hf⟩ := frame_pending_or_command cfg c.pend b
    · rw [framedCommands_of_pending bs hf] at h
      rw [Ctrl.onWrite_cmd_of_pending hf]
      exact ih h
    · rw [framedCommands_of_command bs hf, Option.map_eq_some_iff] at h
      obtain ⟨rest, hrest, rfl⟩ := h
      rw [Ctrl.onWrite_cmd_of_command hf, Ctrl.executeAll_cons]
      cases hex : Controller.execute cfg { c with pend := none } cmd args with
      | unspecified => simp
      | specified c' =>
        have hpend : c'.pend = none := (Controller.execute_keeps hex).2
        have htail := ih (c := c') (hpend.symm ▸ hrest)
        rwa [← hpend] at htail

theorem Ctrl.executeAll_of_inRange {cmds : List (Byte × List Byte)} (c : Controller) (h : ∀ cmd ∈ cmds, commandInRange cfg cmd) :
    ∃ c', Ctrl.executeAll cfg cmds (.specified c) = .specified c' ∧ c'.mem = c.mem ∧ c'.pend = c.pend := by
  induction cmds generalizing c with
  | nil => exact ⟨c, rfl, rfl, rfl⟩
  | cons cmd cmds ih =>
    rw [List.forall_mem_cons] at h
    rw [Ctrl.executeAll_cons]
    cases hex : Controller.execute cfg c cmd.1 cmd.2 with
    | unspecified => exact absurd hex (h.1 c)
    | specified d =>
      obtain ⟨hmem, hpend⟩ := Controller.execute_keeps hex
      exact hmem ▸ hpend ▸ ih d h.2

/-- Commands that keep the state of one controller are in range for every controller. -/
theorem Ctrl.inRange_of_executeAll {cmds : List (Byte × List Byte)} {c : Controller}
    (h : Ctrl.executeAll cfg cmds (.specified c) ≠ .unspecified) : ∀ cmd ∈ cmds, commandInRange cfg cmd := by
  induction cmds generalizing c with
  | nil => exact fun _ hmem => absurd hmem List.not_mem_nil
  | cons cmd cmds ih =>
    rw [Ctrl.executeAll_cons] at h
    cases hex : Controller.execute cfg c cmd.1 cmd.2 with
    | unspecified => simp [hex] at h
    | specified d =>
      rw [hex] at h
      have hhead : commandInRange cfg cmd := fun e hlost => by simp [(Controller.execute_unspecified_iff e c _ _).1 hlost] at hex
      exact List.forall_mem_cons.2 ⟨hhead, ih h⟩

/-! ### The addressing sequence (R68, R69, 30_encoding.md R100) -/

/-- The two argument bytes of set column complete it. -/
theorem framedCommands_setColumn (hargc : cfg.argc cfg.cmdSetColumn = 2) (s e : Byte) (bs : List Byte) :
    framedCommands cfg none (cfg.cmdSetColumn :: s :: e :: bs) =
      (framedCommands cfg none bs).map ((cfg.cmdSetColumn, [s, e]) :: ·) := by
  simp [framedCommands, frame, hargc]

/-- A byte of no argument is a command on its own. -/
theorem framedCommands_bare {b : Byte} (hargc : cfg.argc b = 0) (bs : List Byte) :
    framedCommands cfg none (b :: bs) = (framedCommands cfg none bs).map ((b, []) :: ·) := by
  simp [framedCommands, frame, hargc]

/-- The page-start byte of a page is a page-start command and carries the page in its low bits (30_encoding.md R99). -/
theorem pageStart_or_page {base p : Byte} (hbase : base &&& 7#8 = 0#8) (hp : p.toNat < 8) :
    (base ||| p) &&& 0xF8#8 = base ∧ (base ||| p).setWidth 3 = p.setWidth 3 := by
  have hpage : p &&& 0xF8#8 = 0#8 := by revert p; decide
  constructor
  · calc (base ||| p) &&& 0xF8#8 = base &&& 0xF8#8 ||| p &&& 0xF8#8 := BitVec.and_or_distrib_right
      _ = base &&& 0xF8#8 ||| base &&& 7#8 := by rw [hpage, hbase]
      _ = base &&& (0xF8#8 ||| 7#8) := BitVec.and_or_distrib_left.symm
      _ = base := BitVec.and_allOnes
  · have hlow : base.setWidth 3 = 0#3 := by
      have h := congrArg (BitVec.setWidth 3) hbase
      rwa [BitVec.setWidth_and, show (7#8).setWidth 3 = BitVec.allOnes 3 from rfl, BitVec.and_allOnes] at h
    rw [BitVec.setWidth_or, hlow, BitVec.zero_or]

theorem Controller.setColumn_of_range (c : Controller) {s e : Byte} (h : s.toNat ≤ e.toNat ∧ e.toNat ≤ 127) :
    c.setColumn s e = .specified { c with cstart := s.setWidth 7, cend := e.setWidth 7, cptr := s.setWidth 7 } := if_pos h

/-- `AddrSeq(x, p)` under well-formed parameters: the range x..127, with the pointer at column x of page p. -/
theorem Ctrl.onWrites_addrSeqBytes {c : Controller} {x p : Byte} (hwf : cfg.wellFormed = true) (hpend : c.pend = none)
    (hx : x.toNat < 128) (hp : p.toNat < 8) :
    Ctrl.onWrites cfg .cmd (addrSeqBytes cfg x p) (.specified c) =
      .specified { c with cstart := x.setWidth 7, cend := 127#7, cptr := x.setWidth 7, pptr := p.setWidth 3 } := by
  obtain ⟨hbase, hcol, hpages⟩ := Config.wellFormed_iff.1 hwf
  obtain ⟨hstart, hlow⟩ := pageStart_or_page hbase hp
  have hpage : cfg.argc (cfg.cmdPageStart ||| p) = 0 := by simpa using hpages p.toNat hp
  have hframed : framedCommands cfg c.pend (addrSeqBytes cfg x p) =
      some [(cfg.cmdSetColumn, [x, 127#8]), (cfg.cmdPageStart ||| p, [])] := by
    rw [hpend, addrSeqBytes, framedCommands_setColumn hcol, framedCommands_bare hpage]
    rfl
  have hrange : x.toNat ≤ (127#8).toNat ∧ (127#8).toNat ≤ 127 := ⟨by simp only [BitVec.toNat_ofNat]; omega, by decide⟩
  rw [Ctrl.onWrites_cmd_of_framed hframed, Ctrl.executeAll_cons, Controller.execute_setColumn, Controller.setColumn_of_range _ hrange,
    Ctrl.executeAll_cons, Controller.execute_pageStart (by simp [isPageStart, hstart]), Ctrl.executeAll_nil, hlow, hpend]
  rfl

theorem Ctrl.onWrites_addrSeqBytes_origin {c : Controller} (hwf : cfg.wellFormed = true) (hpend : c.pend = none) :
    Ctrl.onWrites cfg .cmd (addrSeqBytes cfg 0#8 0#8) (.specified c) = .specified (Controller.onScreen c.mem 0) := by
  rw [Ctrl.onWrites_addrSeqBytes hwf hpend (by decide) (by decide), hpend]
  rfl

/-- A whole screen of data bytes from (0,0): they fill display memory in order, and the pointer comes back to (0,0). -/
theorem Ctrl.onWrites_screen {c : Controller} {bs : List Byte} (hwf : cfg.wellFormed = true) (hpend : c.pend = none)
    (hlen : bs.length = Config.displayBytes) :
    Ctrl.onWrites cfg .data bs (Ctrl.onWrites cfg .cmd (addrSeqBytes cfg 0#8 0#8) (.specified c)) =
      .specified (Controller.onScreen (c.mem.writeFrom 0 bs) 0) := by
  rw [Ctrl.onWrites_addrSeqBytes_origin hwf hpend, Ctrl.onWrites_data_onScreen cfg (by omega), Nat.zero_add, hlen,
    Controller.onScreen_displayBytes]

/-- Zeroes over the whole display leave no byte to list. -/
theorem Memory.writeFrom_zeroes {m : Memory} (hm : m.wf = true) :
    m.writeFrom 0 (List.replicate Config.displayBytes 0#8) = [] := by
  refine canonicalMemoriesThatReadAlikeAreEqual _ _ (Memory.wf_writeFrom (by simp) hm) rfl fun a (ha : a < Config.displayBytes) => ?_
  have hread := Memory.read_writeFrom (a := 0) (i := a) (bs := List.replicate Config.displayBytes 0#8) (by simp) hm (by simpa using ha)
  rw [Nat.zero_add, List.getElem?_replicate_of_lt ha] at hread
  exact Option.some.inj hread

theorem Ctrl.onWrites_clearScreen {c : Controller} (hwf : cfg.wellFormed = true) (hpend : c.pend = none) (hm : c.mem.wf = true) :
    Ctrl.onWrites cfg .data (List.replicate Config.displayBytes 0#8)
      (Ctrl.onWrites cfg .cmd (addrSeqBytes cfg 0#8 0#8) (.specified c)) = .specified Controller.afterInit := by
  rw [Ctrl.onWrites_screen hwf hpend List.length_replicate, Memory.writeFrom_zeroes hm]
  rfl

/-! ### The transactions of INIT (R74, 44_lifecycle.md R193) -/

theorem scriptConforms_iff :
    scriptConforms cfg = true ↔
      ∃ cmds, framedCommands cfg none cfg.initScript = some cmds ∧ followsSteps cfg InitStep.inOrder cmds = true := by
  unfold scriptConforms
  cases framedCommands cfg none cfg.initScript <;> simp

/-- A script whose commands are in range leaves memory and no command pending, so the clear after it ends in the state of R74. -/
theorem Ctrl.onWrites_init {c : Controller} {cmds : List (Byte × List Byte)} (hwf : cfg.wellFormed = true) (hpend : c.pend = none)
    (hm : c.mem.wf = true) (hframed : framedCommands cfg none cfg.initScript = some cmds) (hrange : ∀ cmd ∈ cmds, commandInRange cfg cmd) :
    Ctrl.onWrites cfg .data (List.replicate Config.displayBytes 0#8)
      (Ctrl.onWrites cfg .cmd (cfg.initScript ++ addrSeqBytes cfg 0#8 0#8) (.specified c)) = .specified Controller.afterInit := by
  obtain ⟨c', hscript, hmem, hpend'⟩ := Ctrl.executeAll_of_inRange { c with pend := none } hrange
  rw [Ctrl.onWrites_append, Ctrl.onWrites_cmd_of_framed (hpend ▸ hframed), hscript]
  exact Ctrl.onWrites_clearScreen hwf hpend' (hmem ▸ hm)

/-- Settles O57: the script keeps the state of the booted controller, so by `Ctrl.inRange_of_executeAll` it keeps that of every other. -/
theorem initBootsOnlyWhereItsTransactionsDo : Obligations.InitBootsOnlyWhereItsTransactionsDo := by
  unfold Obligations.InitBootsOnlyWhereItsTransactionsDo
  intro cfg c hboots hpend hm
  obtain ⟨-, -, -, hconf, hwf, hinRange⟩ := (initBoots_iff cfg).1 hboots
  obtain ⟨cmds, hframed, -⟩ := scriptConforms_iff.1 hconf
  refine Ctrl.onWrites_init hwf hpend hm hframed (Ctrl.inRange_of_executeAll (c := Controller.afterInit) fun hlost => ?_)
  have hscript := (Ctrl.onWrites_cmd_of_framed (c := Controller.afterInit) hframed).trans hlost
  simp [scriptInRange, hscript] at hinRange

theorem followsSteps_accepts {steps : List InitStep} {cmds : List (Byte × List Byte)} (h : followsSteps cfg steps cmds = true) :
    ∀ cmd ∈ cmds, ∃ st, InitStep.accepts cfg cmd.1 cmd.2 st = true := by
  induction cmds generalizing steps with
  | nil => exact fun _ hmem => absurd hmem List.not_mem_nil
  | cons cmd cmds ih =>
    cases steps with
    | nil => simp [followsSteps] at h
    | cons st steps =>
      rw [followsSteps, Bool.and_eq_true] at h
      exact List.forall_mem_cons.2 ⟨⟨st, h.1⟩, ih h.2⟩

/-- Of the steps' command bytes only the column range's is set column, and none is page start. -/
theorem InitStep.accepts_other {cmd : Byte} {args : List Byte} {st : InitStep} (hst : st ≠ .columnRange)
    (h : InitStep.accepts cfg cmd args st = true) : cmd ≠ 0x21#8 ∧ cmd &&& 0xF8#8 ≠ 0xB0#8 := by
  cases st with
  | columnRange => exact absurd rfl hst
  | startLine =>
    have hline : ∀ b : Byte, 0x40 ≤ b.toNat ∧ b.toNat ≤ 0x7F → b ≠ 0x21#8 ∧ b &&& 0xF8#8 ≠ 0xB0#8 := by decide
    exact hline cmd (by simpa [InitStep.accepts] using h)
  | comScanDirection =>
    obtain rfl | rfl : cmd = 0xC0#8 ∨ cmd = 0xC8#8 := by simpa [InitStep.accepts] using h
    all_goals decide
  | horizontalAddressing =>
    obtain ⟨rfl, -⟩ : cmd = 0x20#8 ∧ args = [0#8] := by simpa [InitStep.accepts] using h
    decide
  | _ =>
    obtain rfl := eq_of_beq h
    decide

/-- Under the command bytes of R76 every command of a named step is in range. -/
theorem InitStep.accepts_inRange (hcol : cfg.cmdSetColumn = 0x21#8) (hpage : cfg.cmdPageStart = 0xB0#8) {cmd : Byte × List Byte}
    {st : InitStep} (h : InitStep.accepts cfg cmd.1 cmd.2 st = true) : commandInRange cfg cmd := by
  intro c
  by_cases hst : st = .columnRange
  · obtain ⟨hcmd, hargs⟩ : cmd.1 = cfg.cmdSetColumn ∧ cmd.2 = [0#8, 127#8] := by simpa [hst, InitStep.accepts] using h
    rw [hcmd, hargs, Controller.execute_setColumn, Controller.setColumn_of_range c (by decide)]
    exact Ctrl.noConfusion
  · obtain ⟨hneCol, hnePage⟩ := InitStep.accepts_other hst h
    rw [Controller.execute_other cmd.2 (hcol ▸ hneCol) (by simpa [isPageStart, hpage] using hnePage)]
    exact Ctrl.noConfusion

/-- Settles O56: each named step's command is in range, since only the column range's is set column and its arguments are 0 and 127. -/
theorem initTransactionsDeriveTheBootState : Obligations.InitTransactionsDeriveTheBootState := by
  unfold Obligations.InitTransactionsDeriveTheBootState
  intro cfg c hcol hpage hargc hconf hpend hm
  obtain ⟨cmds, hframed, hsteps⟩ := scriptConforms_iff.1 hconf
  refine Ctrl.onWrites_init (Config.wellFormed_of_defaultArgc hcol hpage hargc) hpend hm hframed fun cmd hcmd => ?_
  obtain ⟨st, hst⟩ := followsSteps_accepts hsteps cmd hcmd
  exact InitStep.accepts_inRange hcol hpage hst

end Sys2Proof.Machine
end

section
/-! PROOFS. Requests at the reference controller (20_memory.md section 5): the environment after a request is its events' effect, one after another
(`exec_receives`), and the bytes a request writes lie where R54, R55 and R71 say. -/

namespace Sys2Proof.Machine

/-! ### The controller receives the transactions in TRACE order (R62) -/

/-- Each read among the events `es` returns a byte the environment `x` holds when the read comes (R73). -/
def readsAreHeld (cfg : Config) (x : Ctrl) (es : List Event) : Prop :=
  ∀ pre v post, es = pre ++ .read v :: post → ∃ n, v = (pre.foldl (Ctrl.onEvent cfg) x).envRead n

theorem readsAreHeld_nil (cfg : Config) (x : Ctrl) : readsAreHeld cfg x [] := fun pre _ _ h => by simp at h

theorem readsAreHeld_cons {cfg : Config} {x : Ctrl} {e : Event} {es : List Event} (hhead : ∀ v, e = .read v → ∃ n, v = x.envRead n)
    (htail : readsAreHeld cfg (x.onEvent cfg e) es) : readsAreHeld cfg x (e :: es) := by
  intro pre v post h
  cases pre with
  | nil => exact hhead v (List.cons.inj h).1
  | cons e' pre =>
    obtain ⟨rfl, hrest⟩ := List.cons.inj h
    exact htail pre v post hrest

/-- A transaction appends the one event whose effect it has on the environment. -/
theorem State.runTxn_event (s : State) (v : Byte) (t : Txn) :
    ∃ e, (s.runTxn v t).trace = s.trace ++ [e] ∧ (s.runTxn v t).ctrl = s.ctrl.onEvent s.cfg e ∧
      ∀ w, e = .read w → ∃ n, w = s.ctrl.envRead n := by
  cases t with
  | write k b => cases k <;> exact ⟨_, rfl, rfl, fun _ h => Event.noConfusion h⟩
  | read => exact ⟨_, rfl, rfl, fun w h => ⟨s.draws + 1, (Event.read.inj h).symm⟩⟩
  | _ => exact ⟨_, rfl, rfl, fun _ h => Event.noConfusion h⟩

theorem State.runTxns_events (s : State) (v : Byte) (ts : List Txn) :
    ∃ es, (s.runTxns v ts).1.trace = s.trace ++ es ∧ (s.runTxns v ts).1.ctrl = es.foldl (Ctrl.onEvent s.cfg) s.ctrl ∧
      readsAreHeld s.cfg s.ctrl es := by
  induction ts generalizing s v with
  | nil => exact ⟨[], (List.append_nil _).symm, rfl, readsAreHeld_nil _ _⟩
  | cons t ts ih =>
    obtain ⟨e, htrace, hctrl, hread⟩ := s.runTxn_event v t
    obtain ⟨hcfg, -, -⟩ := s.runTxn_hostSide v t
    obtain ⟨es, htraces, hctrls, hreads⟩ := ih (s.runTxn v t) (s.lastRead v t)
    rw [hcfg, hctrl] at hctrls hreads
    refine ⟨e :: es, ?_, hctrls, readsAreHeld_cons hread hreads⟩
    rw [State.runTxns, htraces, htrace, List.append_assoc]
    rfl

theorem State.finish_ctrl (s : State) {i : Instr} (v : Byte) (h : i ≠ .init) : (s.finish i v).ctrl = s.ctrl := by
  cases i with
  | init => exact absurd rfl h
  | putChar c => simp only [State.finish]; split <;> rfl
  | _ => rfl

/-- A request other than INIT appends events to TRACE, and its environment is the one that has received them. -/
theorem exec_receives {i : Instr} {s t : State} (hne : i ≠ .init) (h : exec i s = .next t) :
    ∃ es, t.trace = s.trace ++ es ∧ t.ctrl = es.foldl (Ctrl.onEvent s.cfg) s.ctrl ∧ readsAreHeld s.cfg s.ctrl es := by
  obtain rfl | ⟨v, rfl⟩ := exec_next_cases h
  · exact ⟨[], (List.append_nil _).symm, rfl, readsAreHeld_nil _ _⟩
  · rw [State.finish_trace, State.finish_ctrl _ _ hne]
    exact s.runTxns_events ..

/-- Settles O17: each transaction appends its event and has that event's effect; the end of a request touches neither TRACE nor the environment. -/
theorem controllerReceivesTheTraceInOrder : Obligations.ControllerReceivesTheTraceInOrder := by
  unfold Obligations.ControllerReceivesTheTraceInOrder
  intro i s hne
  obtain ⟨t, hex, -⟩ := everyRequestRunsToCompletion i s
  obtain ⟨es, htrace, hctrl, hreads⟩ := exec_receives hne hex
  exact ⟨t, es, hex, htrace, hctrl, fun pre v post h _ => hreads pre v post h⟩

/-! ### The unspecified state (R74, R75) -/

theorem Ctrl.foldl_onEvent_unspecified (cfg : Config) (es : List Event) : es.foldl (Ctrl.onEvent cfg) .unspecified = .unspecified := by
  induction es with
  | nil => rfl
  | cons e es ih =>
    have hone : Ctrl.onEvent cfg .unspecified e = .unspecified := by cases e <;> rfl
    rw [List.foldl_cons, hone, ih]

theorem exec_ctrl_unspecified {i : Instr} {s t : State} (hne : i ≠ .init) (hun : s.ctrl = .unspecified) (h : exec i s = .next t) :
    t.ctrl = .unspecified := by
  obtain ⟨es, -, hctrl, -⟩ := exec_receives hne h
  rw [hctrl, hun, Ctrl.foldl_onEvent_unspecified]

theorem State.idle_of_step {s t : State} (h : step s = .next t) : s.phase = .idle := by
  cases hph : s.phase with
  | idle => rfl
  | busy p => simp [step_of_busy hph] at h

/-- A step that is no INIT keeps an unspecified environment. -/
theorem step_ctrl_unspecified {s t : State} (hun : s.ctrl = .unspecified) (h : step s = .next t)
    (hne : ¬ ∃ r rest, s.host = r :: rest ∧ decode r.word = .ok .init) : t.ctrl = .unspecified := by
  have hidle := State.idle_of_step h
  cases hhost : s.host with
  | nil =>
    obtain rfl := Host.Outcome.next.inj ((step_of_idle_nil hidle hhost).symm.trans h)
    exact hun
  | cons r rest =>
    cases hdec : decode r.word with
    | error e =>
      obtain rfl := Host.Outcome.next.inj ((step_of_decode_error hidle hhost hdec).symm.trans h)
      exact hun
    | ok i =>
      have hi : i ≠ .init := by rintro rfl; exact hne ⟨r, rest, hhost, hdec⟩
      exact exec_ctrl_unspecified (s := s.accept r rest) hi hun ((step_of_decode_ok hidle hhost hdec).symm.trans h)

/-- Settles O34: no event brings an unspecified environment back, and its read cycle takes a second draw as the byte it returns. -/
theorem anUnspecifiedControllerStaysUnspecified : Obligations.AnUnspecifiedControllerStaysUnspecified := by
  unfold Obligations.AnUnspecifiedControllerStaysUnspecified
  intro s t hun h
  refine ⟨or_iff_not_imp_right.2 (step_ctrl_unspecified hun h), fun r rest hhost hdec => ⟨s.draws + 1, Nat.le_succ _, ?_⟩⟩
  have hex : exec .rdata (s.accept r rest) = .next t := step_of_decode_ok (State.idle_of_step h) hhost hdec ▸ h
  obtain rfl := Host.Outcome.next.inj hex
  simp [State.readValue, hun, Ctrl.envRead, Ctrl.envDraws, State.hostRdout]

/-! ### WDATA and RDATA (R67, R71 to R73) -/

/-- Settles O31: the write goes to the pointer's address, and the advance leaves everything but the pointer. -/
theorem dataWriteStoresAtThePointerAndAdvances : Obligations.DataWriteStoresAtThePointerAndAdvances := by
  unfold Obligations.DataWriteStoresAtThePointerAndAdvances
  intro b s c hs hpend hm
  have hadvance := Controller.advance_pointer s.cfg { c with mem := c.mem.write c.addr b }
  have hctrl : (s.busWrite .data b).ctrl = .specified (Controller.advance s.cfg { c with mem := c.mem.write c.addr b }) := by
    rw [State.busWrite_ctrl, hs, Ctrl.onWrite_data s.cfg b hpend]
  refine ⟨_, _, rfl, hctrl, ?_, fun a ha => ?_, ?_, by simp, by simp, by simpa using hpend, hadvance⟩
  · rw [Controller.advance_mem]; exact Memory.read_write_same c.addr b hm
  · rw [Controller.advance_mem]; exact Memory.read_write_other ha b c.mem
  · rw [Controller.advance_mem]; exact Memory.wf_write c.addr_lt b hm

/-- Settles O32: the byte is the one at the pointer's address, and the read cycle advances the pointer once. -/
theorem readReturnsTheByteAtThePointerAndAdvancesOnce : Obligations.ReadReturnsTheByteAtThePointerAndAdvancesOnce := by
  unfold Obligations.ReadReturnsTheByteAtThePointerAndAdvancesOnce
  intro s c hs hpend
  have hctrl : s.busRead.ctrl = .specified (Controller.advance s.cfg c) := by
    rw [State.busRead_ctrl, hs, Ctrl.afterRead_specified s.cfg hpend]
  have hbyte : s.readValue = c.mem.read c.addr := by rw [State.readValue, hs, Ctrl.envRead_specified _ hpend]
  exact ⟨_, _, rfl, hctrl, congrArg some hbyte, by simp, by simp, by simp, by simpa using hpend, Controller.advance_pointer s.cfg c⟩

/-- Settles O33: with a command pending neither transaction is one the controller takes. -/
theorem dataOrReadWhileAnArgumentIsPendingIsUnspecified : Obligations.DataOrReadWhileAnArgumentIsPendingIsUnspecified := by
  unfold Obligations.DataOrReadWhileAnArgumentIsPendingIsUnspecified
  intro s c p hs hpend
  refine ⟨fun b => ⟨_, rfl, rfl, ?_⟩, _, _, rfl, rfl, ?_⟩
  · simp [hs, Ctrl.onWrite, Controller.onData, hpend]
  · simp [hs, Ctrl.afterRead, hpend]

/-! ### Raw commands (R67 to R70) -/

/-- WCMDs one after another are command write cycles, each with its completion. -/
theorem execAll_wcmds (bs : List Byte) (s : State) :
    ∃ t, execAll (bs.map .wcmd) s = .next t ∧ t.trace = s.trace ++ bs.map .cmd ∧ t.ctrl = Ctrl.onWrites s.cfg .cmd bs s.ctrl := by
  induction bs generalizing s with
  | nil => exact ⟨s, rfl, (List.append_nil _).symm, rfl⟩
  | cons b bs ih =>
    obtain ⟨t, hex, htrace, hctrl⟩ := ih (s.busWrite .cmd b).complete
    refine ⟨t, hex, ?_, hctrl⟩
    rw [htrace, State.complete_trace, State.busWrite_trace, List.append_assoc]
    rfl

/-- Settles O35: the three bytes frame into one set-column command, whose range is legal or not. -/
theorem rawSetColumnSetsTheRangeOrLosesTheState : Obligations.RawSetColumnSetsTheRangeOrLosesTheState := by
  unfold Obligations.RawSetColumnSetsTheRangeOrLosesTheState
  intro s c lo hi hs hpend htwo
  obtain ⟨t, hex, htrace, hctrl⟩ := execAll_wcmds [s.cfg.cmdSetColumn, lo, hi] s
  have hframed : framedCommands s.cfg c.pend [s.cfg.cmdSetColumn, lo, hi] = some [(s.cfg.cmdSetColumn, [lo, hi])] := by
    rw [hpend, framedCommands_setColumn (eq_of_beq htwo)]
    rfl
  have hset : t.ctrl = Controller.setColumn { c with pend := none } lo hi := by
    rw [hctrl, hs, Ctrl.onWrites_cmd_of_framed hframed, Ctrl.executeAll_cons, Controller.execute_setColumn, Ctrl.executeAll_nil]
  refine ⟨t, hex, htrace, ?_⟩
  split
  · next hrange =>
    rw [Controller.setColumn_of_range _ hrange] at hset
    refine ⟨_, hset, ?_, ?_, ?_, rfl, rfl, rfl⟩
    all_goals simp only [BitVec.toNat_setWidth]; omega
  · next hrange => exact hset.trans (if_neg hrange)

/-- Settles O36: a byte of no argument is executed at once, as page start or as a command that changes nothing. -/
theorem rawCommandsWithoutArguments : Obligations.RawCommandsWithoutArguments := by
  unfold Obligations.RawCommandsWithoutArguments
  intro s c b hs hpend hargc
  have hctrl : (s.busWrite .cmd b).ctrl = Controller.execute s.cfg c b [] := by
    rw [State.busWrite_ctrl, hs, Ctrl.onWrite_bare s.cfg hpend hargc]
  refine ⟨_, rfl, fun hpage => ?_, fun hnePage hneCol => ?_⟩
  · refine ⟨_, hctrl.trans (Controller.execute_pageStart (by simpa [isPageStart] using hpage)), ?_, rfl, rfl, rfl, rfl, hpend⟩
    exact BitVec.toNat_setWidth ..
  · exact hctrl.trans (Controller.execute_other [] hneCol (by simpa [isPageStart] using hnePage))

/-! ### Glyphs, frames and INIT -/

theorem wraps_eq_false {c : Byte} {col : BitVec 5} (hc : c ≠ 0x0A#8) (hcol : col.toNat < 21) : wraps c col = false := by
  have hroom : ¬ Config.cap ≤ col.toNat := Nat.not_le.2 hcol
  simp [wraps, hc, hroom]

theorem State.renderGlyph_ctrl (s : State) (c : Byte) :
    (s.renderGlyph c).ctrl = s.ctrl.onWrites s.cfg .data (s.glyphBytes c ++ [0#8]) := by
  simp [State.renderGlyph, Ctrl.onWrites_append]

/-- Settles O43: the six bytes are a row that ends before column CEND. -/
theorem renderedGlyphLandsAtThePointer : Obligations.RenderedGlyphLandsAtThePointer := by
  unfold Obligations.RenderedGlyphLandsAtThePointer
  intro ch s c hch hcol hs hpend hm hfit
  have hex : exec (.putChar ch) s = .next (s.renderGlyph ch).complete := if_neg (by simp [wraps_eq_false hch hcol])
  have hlen : (s.glyphBytes ch ++ [0#8]).length = 6 := by simp [s.glyphBytes_length]
  have hend := c.cend.isLt
  have hpage := c.pptr.isLt
  have hbound : c.addr + (s.glyphBytes ch ++ [0#8]).length ≤ Config.displayBytes := by
    simp only [Controller.addr, displayAddr, Config.displayBytes, hlen]
    omega
  have haddr (k : Nat) : displayAddr c.pptr.toNat (c.cptr.toNat + k) = c.addr + k := (Nat.add_assoc ..).symm
  have hctrl := (s.renderGlyph_ctrl ch).trans (hs ▸ Ctrl.onWrites_data_row s.cfg hpend (hlen.symm ▸ hfit))
  refine ⟨_, _, s.glyphBytes ch, hex, hctrl, ?_, fun k hk => ?_, fun a ha => ?_, ?_, rfl⟩
  · simp
  · rw [haddr]
    exact Memory.read_writeFrom hbound hm (hlen.symm ▸ hk)
  · refine Memory.read_writeFrom_outside c.mem ?_
    by_contra hin
    exact ha (a - c.addr) (by omega) (by rw [haddr]; omega)
  · simp only [hlen, BitVec.toNat_add, BitVec.toNat_ofNat]
    omega

/-- Settles O47: byte i lands at display address i, which is page i div 128, column i mod 128. -/
theorem blitLaysTheFrameOutByPage : Obligations.BlitLaysTheFrameOutByPage := by
  unfold Obligations.BlitLaysTheFrameOutByPage
  intro s c hwf hs hpend hm hlen
  have hex : exec .blit s = .next ((s.addrSeq 0#8 0#8).busWriteAll .data s.bitmapPort).complete := if_pos hlen
  have hctrl : ((s.addrSeq 0#8 0#8).busWriteAll .data s.bitmapPort).ctrl =
      .specified (Controller.onScreen (c.mem.writeFrom 0 s.bitmapPort) 0) := by
    rw [State.busWriteAll_ctrl, State.addrSeq_cfg, State.addrSeq_ctrl, hs, Ctrl.onWrites_screen hwf hpend hlen]
  have hbound : 0 + s.bitmapPort.length ≤ Config.displayBytes := by rw [hlen]; decide
  refine ⟨_, _, hex, hctrl, fun i hi => ?_, Memory.wf_writeFrom hbound hm, rfl, rfl, rfl, rfl, rfl⟩
  have haddr : displayAddr (i / 128) (i % 128) = 0 + i := by simp only [displayAddr]; omega
  rw [haddr]
  exact Memory.read_writeFrom hbound hm (hlen.symm ▸ hi)

/-- Settles O55: INIT ends in `Ctrl.whenInitCompletes`, and the two premises are `initBoots` and its negation, condition by condition. -/
theorem initBootsTheReferenceController : Obligations.InitBootsTheReferenceController := by
  unfold Obligations.InitBootsTheReferenceController
  intro s
  refine ⟨_, rfl, fun hatt hlow hrec hconf hwf hrange => ?_, fun hnot => ?_⟩
  · have hboots := (initBoots_iff s.cfg).2 ⟨hatt, hlow, hrec, hconf, hwf, hrange⟩
    exact ⟨Controller.afterInit, by simp [hboots], fun _ _ => rfl, rfl, rfl, rfl, rfl, rfl⟩
  · have hnoBoot : initBoots s.cfg = false := by
      by_contra hboots
      obtain ⟨hatt, hlow, hrec, hconf, hwf, hrange⟩ := (initBoots_iff s.cfg).1 (by simpa using hboots)
      obtain h | h | h | h | h | h := hnot
      · simp [hatt] at h
      · omega
      · omega
      · simp [hconf] at h
      · simp [hwf] at h
      · simp [hrange] at h
    simp [hnoBoot]

/-! ### Request words as bytes (R56) -/

theorem wordOfBytes_eq_shifts (b0 b1 b2 b3 : Byte) :
    wordOfBytes b0 b1 b2 b3 =
      (b3.setWidth 32 <<< 24) ||| (b2.setWidth 32 <<< 16) ||| (b1.setWidth 32 <<< 8) ||| b0.setWidth 32 := by
  have hhigh (b : Byte) (k : Nat) (hk : 8 ≤ k) : BitVec.getLsbD b k = false := BitVec.getLsbD_of_ge b k hk
  refine BitVec.eq_of_getLsbD_eq fun k hk => ?_
  simp only [wordOfBytes, BitVec.getLsbD_append, BitVec.getLsbD_or, BitVec.getLsbD_shiftLeft, BitVec.getLsbD_setWidth]
  grind

theorem wordOfBytes_bytesOfWord (w : Word) :
    wordOfBytes (w.extractLsb' 0 8) (w.extractLsb' 8 8) (w.extractLsb' 16 8) (w.extractLsb' 24 8) = w := by
  rw [wordOfBytes, BitVec.extractLsb'_append_extractLsb'_eq_extractLsb' (start₂ := 24) (start₁ := 16) rfl,
    BitVec.extractLsb'_append_extractLsb'_eq_extractLsb' (start₂ := 16) (start₁ := 8) rfl,
    BitVec.extractLsb'_append_extractLsb'_eq_extractLsb' (start₂ := 8) (start₁ := 0) rfl]
  exact BitVec.extractLsb'_eq_self

theorem decodeBytes_bytesOfWord (w : Word) (rest : List Byte) :
    decodeBytes (bytesOfWord w ++ rest) = (decode w).map (·, rest) := by
  simp only [bytesOfWord, List.cons_append, List.nil_append, decodeBytes, wordOfBytes_bytesOfWord]
  cases decode w <;> rfl

/-- Settles O8: byte k holds bits 8k to 8k+7, and the decoder on bytes puts the word together again. -/
theorem bytesAreReadLittleEndian : Obligations.BytesAreReadLittleEndian := by
  unfold Obligations.BytesAreReadLittleEndian
  refine ⟨wordOfBytes_eq_shifts, fun w i rest hdec => ?_, fun w e rest hdec => ?_⟩
  all_goals rw [decodeBytes_bytesOfWord, hdec]; rfl

end Sys2Proof.Machine
end

section
/-! PROOFS. The request word (30_encoding.md R90 to R96, R103). A word is its five fields, and the encoder puts OP and the operands in theirs;
the decoder checks the two reserved fields and reads the opcode map (`decode_ok_iff`), which gives a request for its OP and the operands it
uses (`decodeFields_ok_iff`). The assembler then presents nothing but encoded requests. -/

namespace Sys2Proof

/-! ### The fields of a word (R91) -/

theorem Word.append_fields (w : Word) : Word.rsv1 w ++ Word.operandB w ++ Word.operandA w ++ Word.rsv0 w ++ Word.op w = w := by
  rw [Word.rsv1, Word.operandB, Word.operandA, Word.rsv0, Word.op,
    BitVec.extractLsb'_append_extractLsb'_eq_extractLsb' (start₂ := 24) (start₁ := 16) rfl,
    BitVec.extractLsb'_append_extractLsb'_eq_extractLsb' (start₂ := 16) (start₁ := 8) rfl,
    BitVec.extractLsb'_append_extractLsb'_eq_extractLsb' (start₂ := 8) (start₁ := 4) rfl,
    BitVec.extractLsb'_append_extractLsb'_eq_extractLsb' (start₂ := 4) (start₁ := 0) rfl]
  exact BitVec.extractLsb'_eq_self

theorem Word.eq_iff_fields {w v : Word} :
    w = v ↔ Word.rsv1 w = Word.rsv1 v ∧ Word.rsv0 w = Word.rsv0 v ∧ Word.op w = Word.op v ∧
      Word.operandA w = Word.operandA v ∧ Word.operandB w = Word.operandB v := by
  constructor
  · rintro rfl
    exact ⟨rfl, rfl, rfl, rfl, rfl⟩
  · rintro ⟨hrsv1, hrsv0, hop, ha, hb⟩
    rw [← Word.append_fields w, ← Word.append_fields v, hrsv1, hrsv0, hop, ha, hb]

@[simp] theorem Word.op_and (w m : Word) : Word.op (w &&& m) = Word.op w &&& Word.op m := BitVec.extractLsb'_and
@[simp] theorem Word.rsv0_and (w m : Word) : Word.rsv0 (w &&& m) = Word.rsv0 w &&& Word.rsv0 m := BitVec.extractLsb'_and
@[simp] theorem Word.operandA_and (w m : Word) : Word.operandA (w &&& m) = Word.operandA w &&& Word.operandA m := BitVec.extractLsb'_and
@[simp] theorem Word.operandB_and (w m : Word) : Word.operandB (w &&& m) = Word.operandB w &&& Word.operandB m := BitVec.extractLsb'_and
@[simp] theorem Word.rsv1_and (w m : Word) : Word.rsv1 (w &&& m) = Word.rsv1 w &&& Word.rsv1 m := BitVec.extractLsb'_and

/-! ### The fields of an encoded request (R103) -/

@[simp] theorem op_encode (i : Instr) : Word.op (encode i) = i.op := BitVec.extractLsb'_append_eq_right (w := 28)

@[simp] theorem rsv0_encode (i : Instr) : Word.rsv0 (encode i) = 0#4 :=
  (BitVec.extractLsb'_append_eq_of_le (v := 28) (w := 4) (by decide)).trans (BitVec.extractLsb'_append_eq_right (w := 24))

@[simp] theorem operandA_encode (i : Instr) : Word.operandA (encode i) = i.fieldA :=
  (BitVec.extractLsb'_append_eq_of_le (v := 28) (w := 4) (by decide)).trans <|
    (BitVec.extractLsb'_append_eq_of_le (v := 24) (w := 4) (by decide)).trans (BitVec.extractLsb'_append_eq_right (w := 16))

@[simp] theorem operandB_encode (i : Instr) : Word.operandB (encode i) = i.fieldB :=
  (BitVec.extractLsb'_append_eq_of_le (v := 28) (w := 4) (by decide)).trans <|
    (BitVec.extractLsb'_append_eq_of_le (v := 24) (w := 4) (by decide)).trans <|
      (BitVec.extractLsb'_append_eq_of_le (v := 16) (w := 8) (by decide)).trans (BitVec.extractLsb'_append_eq_right (w := 8))

@[simp] theorem rsv1_encode (i : Instr) : Word.rsv1 (encode i) = 0#8 :=
  (BitVec.extractLsb'_append_eq_of_le (v := 28) (w := 4) (by decide)).trans <|
    (BitVec.extractLsb'_append_eq_of_le (v := 24) (w := 4) (by decide)).trans <|
      (BitVec.extractLsb'_append_eq_of_le (v := 16) (w := 8) (by decide)).trans (BitVec.extractLsb'_append_eq_left (w' := 8))

/-! ### The bits looked at for a request (R94) -/

@[simp] theorem and_fullByte (x : Byte) : x &&& 0xFF#8 = x :=
  (congrArg (x &&& ·) (by decide : 0xFF#8 = BitVec.allOnes 8)).trans BitVec.and_allOnes

@[simp] theorem and_fullNibble (x : BitVec 4) : x &&& 0xF#4 = x :=
  (congrArg (x &&& ·) (by decide : 0xF#4 = BitVec.allOnes 4)).trans BitVec.and_allOnes

@[simp] theorem operands_maskNone : Word.operandA 0xFF0000FF#32 = 0#8 ∧ Word.operandB 0xFF0000FF#32 = 0#8 := by decide

@[simp] theorem operands_maskA : Word.operandA 0xFF00FFFF#32 = 0xFF#8 ∧ Word.operandB 0xFF00FFFF#32 = 0#8 := by decide

@[simp] theorem operands_maskAB : Word.operandA 0xFFFFFFFF#32 = 0xFF#8 ∧ Word.operandB 0xFFFFFFFF#32 = 0xFF#8 := by decide

/-- OP and the two reserved fields are looked at for every request: the mask 0xFF0000FF. -/
theorem usedBits_mask (i : Instr) :
    Word.op i.usedBits = 0xF#4 ∧ Word.rsv0 i.usedBits = 0xF#4 ∧ Word.rsv1 i.usedBits = 0xFF#8 := by
  cases i <;> simp only [Instr.usedBits] <;> decide

theorem masked_eq_encode_iff {w : Word} {i : Instr} :
    w &&& i.usedBits = encode i ↔ Word.rsv1 w = 0#8 ∧ Word.rsv0 w = 0#4 ∧ Word.op w = i.op ∧
      Word.operandA w &&& Word.operandA i.usedBits = i.fieldA ∧ Word.operandB w &&& Word.operandB i.usedBits = i.fieldB := by
  obtain ⟨hop, hrsv0, hrsv1⟩ := usedBits_mask i
  simp [Word.eq_iff_fields, hop, hrsv0, hrsv1]

/-! ### The opcode map (R93) -/

/-- The opcode map gives a request of the OP it was given, or turns the reserved opcodes away (R95). -/
theorem decodeFields_cases (op : BitVec 4) (a b : Byte) :
    (∃ i : Instr, op = i.op ∧ decodeFields op a b = .ok i) ∨
      (op = 0x0#4 ∨ 0xB#4 ≤ op) ∧ decodeFields op a b = .error .reservedOpcode := by
  fun_cases decodeFields op a b
  case case11 => exact .inr ⟨by bv_omega, rfl⟩
  all_goals exact .inl ⟨_, ‹op = _›, rfl⟩

theorem op_of_decodeFields {op : BitVec 4} {a b : Byte} {i : Instr} (h : decodeFields op a b = .ok i) : op = i.op := by
  obtain ⟨j, hop, hj⟩ | ⟨-, hreserved⟩ := decodeFields_cases op a b
  · cases h.symm.trans hj
    exact hop
  · cases h.symm.trans hreserved

/-- At its own OP a request is read from the operand fields it uses, whatever stands in the others (R92, R94). -/
theorem decodeFields_own_op {a b : Byte} {i : Instr} :
    decodeFields i.op a b = .ok i ↔ a &&& Word.operandA i.usedBits = i.fieldA ∧ b &&& Word.operandB i.usedBits = i.fieldB := by
  cases i <;> simp [decodeFields, Instr.op, Instr.fieldA, Instr.fieldB, Instr.usedBits]

theorem decodeFields_ok_iff {op : BitVec 4} {a b : Byte} {i : Instr} :
    decodeFields op a b = .ok i ↔
      op = i.op ∧ a &&& Word.operandA i.usedBits = i.fieldA ∧ b &&& Word.operandB i.usedBits = i.fieldB := by
  constructor
  · intro h
    obtain rfl := op_of_decodeFields h
    exact ⟨rfl, decodeFields_own_op.1 h⟩
  · rintro ⟨rfl, hfields⟩
    exact decodeFields_own_op.2 hfields

/-- No request has a reserved OP (R95). -/
theorem Instr.op_legal (i : Instr) : ¬ (i.op = 0x0#4 ∨ 0xB#4 ≤ i.op) := by
  cases i <;> simp [Instr.op]

theorem decodeFields_error_iff {op : BitVec 4} {a b : Byte} : (∃ e, decodeFields op a b = .error e) ↔ op = 0x0#4 ∨ 0xB#4 ≤ op := by
  obtain ⟨i, rfl, hi⟩ | ⟨hop, hreserved⟩ := decodeFields_cases op a b
  · simp [hi, i.op_legal]
  · simp [hreserved, hop]

/-! ### Decoding and encoding (R96, R103) -/

theorem decode_ok_iff {w : Word} {i : Instr} :
    decode w = .ok i ↔ Word.rsv1 w = 0#8 ∧ Word.rsv0 w = 0#4 ∧ decodeFields (Word.op w) (Word.operandA w) (Word.operandB w) = .ok i := by
  unfold decode
  split_ifs with hrsv1 hrsv0
  · simp [hrsv1]
  · simp [hrsv0]
  · simp [not_not.1 hrsv1, not_not.1 hrsv0]

theorem decode_error_iff {w : Word} :
    (∃ e, decode w = .error e) ↔
      Word.rsv0 w ≠ 0#4 ∨ Word.rsv1 w ≠ 0#8 ∨ Word.op w = 0x0#4 ∨ 0xB#4 ≤ Word.op w := by
  unfold decode
  split_ifs with hrsv1 hrsv0
  · simp [hrsv1]
  · simp [hrsv0]
  · simp [not_not.1 hrsv1, not_not.1 hrsv0, decodeFields_error_iff]

@[simp] theorem decodeFields_op_fields (i : Instr) : decodeFields i.op i.fieldA i.fieldB = .ok i := by
  cases i <;> rfl

theorem decode_encode (i : Instr) : decode (encode i) = .ok i := by
  rw [decode_ok_iff]
  simp

/-- Settles O6: each field of the encoded word is what the encoder put there, and the opcode map reads it back. -/
theorem decodeInvertsEncode : Obligations.DecodeInvertsEncode := by
  unfold Obligations.DecodeInvertsEncode
  exact fun i _ => decode_encode i

/-- Settles O7: both sides say, field by field, that the reserved fields are 0, OP is the request's, and so are the operands it uses. -/
theorem decodeReadsExactlyTheUsedBits : Obligations.DecodeReadsExactlyTheUsedBits := by
  unfold Obligations.DecodeReadsExactlyTheUsedBits
  intro w i
  rw [decode_ok_iff, decodeFields_ok_iff, masked_eq_encode_iff]

/-- Settles O9: fixed words, evaluated. -/
theorem sampleWordsDecodeAsTheSpecSays : Obligations.SampleWordsDecodeAsTheSpecSays := by
  unfold Obligations.SampleWordsDecodeAsTheSpecSays
  decide

end Sys2Proof

namespace Sys2Proof.Machine

/-! ### Illegal words and requests that need no check (60_exceptions.md R203, R204) -/

theorem State.finish_status (s : State) (i : Instr) (v : Byte) : (s.finish i v).status = .ok := by
  cases i with
  | putChar c => simp only [State.finish]; split <;> rfl
  | _ => rfl

theorem exec_status_of_check_ok {i : Instr} {s : State} (h : s.check i = .ok) : ∃ t, exec i s = .next t ∧ t.status = .ok :=
  ⟨_, exec_of_check_ok 0#8 h, State.finish_status ..⟩

/-- Settles O5: the decoder turns away by a reserved field or by the opcode map; the step with such a word raises its status at IDLE. -/
theorem illegalWordsCompleteWithIllegalRequest : Obligations.IllegalWordsCompleteWithIllegalRequest := by
  unfold Obligations.IllegalWordsCompleteWithIllegalRequest
  refine ⟨fun w => decode_error_iff, fun s r rest e hidle hhost hdec => ?_, fun s i hunchecked => exec_status_of_check_ok ?_⟩
  · rw [step_of_decode_error hidle hhost hdec, State.raiseStatus, ← hidle]
    rfl
  · rcases hunchecked with ⟨b, rfl⟩ | ⟨b, rfl⟩ | rfl | ⟨c, rfl⟩ | rfl | rfl <;> rfl

/-! ### Program text (R103) -/

/-- A request as the assembler presents it: an encoded request, with a frame only if it is a BLIT. -/
def HostRequest.Assembled (r : HostRequest) : Prop := ∃ i b, r = requestOf b i ∧ (i ≠ .blit → b = [])

theorem HostRequest.assembled_blit (b : List Byte) : (requestOf b .blit).Assembled := ⟨.blit, b, rfl, fun h => absurd rfl h⟩

theorem HostRequest.assembled_plain (i : Instr) : (requestOf [] i).Assembled := ⟨i, [], rfl, fun _ => rfl⟩

theorem HostRequest.Assembled.decodes {r : HostRequest} (h : r.Assembled) :
    ∃ i, decode r.word = .ok i ∧ r.word = encode i ∧ (i ≠ .blit → r.bitmap = []) := by
  obtain ⟨i, b, rfl, hframe⟩ := h
  exact ⟨i, decode_encode i, rfl, hframe⟩

theorem assembleLines_assembled {lines : List (List Char)} {rs : List HostRequest} (h : assembleLines lines = some rs) :
    ∀ r ∈ rs, r.Assembled := by
  induction lines using assembleLines.induct generalizing rs with
  | case1 =>
    cases h
    exact List.forall_mem_nil _
  | case2 line rest hblank ih => exact ih (assembleLines_blank rest hblank ▸ h)
  | case3 line hline hblit => simp [(assembleLines_blit hline hblit).1] at h
  | case4 line hline hblit buf rest ih =>
    rw [(assembleLines_blit hline hblit).2] at h
    obtain ⟨b, -, hrest⟩ := Option.bind_eq_some_iff.1 h
    obtain ⟨rs', hrs', rfl⟩ := Option.map_eq_some_iff.1 hrest
    exact List.forall_mem_cons.2 ⟨HostRequest.assembled_blit b, ih hrs'⟩
  | case5 line rest hline hplain ih =>
    rw [assembleLines_plain rest hline hplain] at h
    obtain ⟨is, -, hrest⟩ := Option.bind_eq_some_iff.1 h
    obtain ⟨rs', hrs', rfl⟩ := Option.map_eq_some_iff.1 hrest
    exact List.forall_mem_append.2 ⟨List.forall_mem_map.2 fun i _ => HostRequest.assembled_plain i, ih hrs'⟩

/-- Settles O58: by induction on the lines every request is an encoded one; the line "BLIT" is evaluated. -/
theorem programsAssembleToEncodedRequests : Obligations.ProgramsAssembleToEncodedRequests := by
  unfold Obligations.ProgramsAssembleToEncodedRequests
  refine ⟨fun text rs h r hr => (assembleLines_assembled h r hr).decodes, fun buf rest b rs hbuf hrest => ?_⟩
  have hline : trim "BLIT".toList ≠ [] := by decide
  have hblit : assemble "BLIT".toList = some [.blit] := by decide
  rw [(assembleLines_blit hline hblit).2, hbuf, hrest]
  rfl

end Sys2Proof.Machine
end

section
/-! PROOFS. The bus protocol (40_bus_protocol.md). The pin states along a request are those of its transactions, one after another
(`State.txnsPins`); between two transactions the bus is quiet (`Pins.Quiet`), and from a quiet bus each transaction settles its lines (R126) and
is recognised as its own event (R127). -/

namespace Sys2Proof.Machine

/-! ### The pin states along a request -/

@[simp] theorem State.finish_pins (s : State) (i : Instr) (v : Byte) : (s.finish i v).pins = s.pins := by
  cases i with
  | putChar c => simp only [State.finish]; split <;> rfl
  | _ => rfl

theorem State.nextTxn_pins (s : State) (p : Progress) (rest : List Txn) : (s.nextTxn p rest).pins = s.pins := by
  cases rest with
  | nil => exact State.finish_pins ..
  | cons t rest => rfl

theorem pinHistory_add (m n : Nat) (s : State) : pinHistory (m + n) s = pinHistory m s ++ pinHistory n (pinRun m s) := by
  induction m generalizing s with
  | zero => rw [Nat.zero_add]; rfl
  | succ m ih => rw [Nat.succ_add, pinHistory, ih]; rfl

/-- PINS after each pin step up to the end of a transaction, seen on the transaction alone. -/
theorem pinHistory_to_last (n : Nat) {s : State} {p : Progress} {t : Txn} {rest : List Txn} (htodo : p.todo = t :: rest)
    (h : p.pin + n = t.pinSteps) :
    pinHistory n (s.busyAt p) = (List.iterate t.advance (t.advance (s, p)) n).map (·.1.pins) := by
  induction n generalizing s p with
  | zero => rfl
  | succ n ih =>
    rw [pinHistory, pinStep_busyAt htodo, List.iterate, List.map_cons]
    cases n with
    | zero => rw [if_neg (by omega), State.nextTxn_pins]; rfl
    | succ n =>
      obtain ⟨bus, v, hkeep⟩ := s.txnPin_progress p t
      rw [if_pos (by omega), ih (by simp only [Txn.advance, hkeep, htodo]) (by simp only [Txn.advance]; omega)]
      rfl

/-- The pin states of a transaction where PINS has a value: those of its cycle (R121, R124), or the one a lifecycle event leaves. -/
def State.txnPins (s : State) (v : Byte) (t : Txn) : List Pins :=
  match t with
  | .write k b => s.pins.history (writeCycle k b)
  | .writeBack mask => s.pins.history (writeCycle .data (v &&& mask))
  | .read => s.pins.history (readCycle (Config.draw8 s.draws) s.readValue)
  | .pinSetup | .resAssert | .resRelease | .delay _ => [(s.runTxn v t).pins]

/-- The pin states of transactions one after another. -/
def State.txnsPins (s : State) (v : Byte) : List Txn → List Pins
  | [] => []
  | t :: ts => s.txnPins v t ++ (s.runTxn v t).txnsPins (s.lastRead v t) ts

theorem Txn.advance_pins {s : State} (p : Progress) (t : Txn) (hset : s.pinsSet = true) :
    (List.iterate t.advance (t.advance (s, { p with pin := 0 })) t.pinSteps).map (·.1.pins) = s.txnPins p.v t := by
  cases t with
  | write | writeBack =>
    simp [Txn.pinSteps, Txn.advance, State.txnPin, State.writePin, State.pinsAfter, hset, Pins.run, State.txnPins, Pins.history,
      writeCycle]
  | read =>
    simp [Txn.pinSteps, Txn.advance, State.txnPin, State.readPin, State.pinsAfter, hset, Pins.run, State.txnPins, Pins.history,
      readCycle, State.readValue]
  | _ => rfl

/-- No transaction takes the value of PINS away (R28). -/
theorem State.runTxn_pinsSet (s : State) (v : Byte) (t : Txn) (hset : s.pinsSet = true) : (s.runTxn v t).pinsSet = true := by
  cases t with
  | pinSetup => rfl
  | _ => exact hset

theorem pinHistory_txns (ts : List Txn) {s : State} (p : Progress) (hset : s.pinsSet = true) :
    pinHistory (ts.map Txn.pinSteps).sum (s.busyAt { p with todo := ts, pin := 0 }) = s.txnsPins p.v ts := by
  induction ts generalizing s p with
  | nil => rfl
  | cons t rest ih =>
    have hhead := pinHistory_to_last t.pinSteps (s := s) (p := { p with todo := t :: rest, pin := 0 }) rfl (Nat.zero_add _)
    rw [Txn.advance_pins { p with todo := t :: rest } t hset] at hhead
    rw [List.map_cons, List.sum_cons, pinHistory_add, hhead, pinRun_txn, State.txnsPins]
    cases rest with
    | nil => rfl
    | cons u rest =>
      exact congrArg _ (ih { p with index := p.index + 1, bus := s.lastRead p.bus t, v := s.lastRead p.v t }
        (s.runTxn_pinsSet p.v t hset))

theorem pinHistory_begin_of_check_ok {i : Instr} {s : State} (hset : s.pinsSet = true) (h : s.check i = .ok) :
    pinHistory (s.pinSteps i) (s.begin i) = s.txnsPins 0#8 (s.txns i) := by
  rw [State.pinSteps_of_check_ok h, State.begin_of_check_ok h]
  exact pinHistory_txns (s.txns i) { req := i, index := 0, todo := s.txns i, pin := 0, bus := 0#8, v := 0#8 } hset

/-- A request turned away does no pin step (R201). -/
theorem pinHistory_begin_of_check_ne_ok {i : Instr} {s : State} (h : s.check i ≠ .ok) : pinHistory (s.pinSteps i) (s.begin i) = [] := by
  rw [State.pinSteps_of_check_ne_ok h]
  rfl

/-! ### A quiet bus -/

/-- The levels between transactions: the idle levels, but for RES, which INIT holds asserted from one transaction to a later one (R192). -/
structure Pins.Quiet (p : Pins) : Prop where
  cs : p.cs = false
  wr : p.wr = false
  rd : p.rd = false
  ddir : p.ddir = .output

theorem Pins.quiet_of_idle {p : Pins} (h : p.idle = true) : p.Quiet := by
  obtain ⟨hcs, hwr, hrd, -, hddir⟩ := Pins.idle_iff.1 h
  exact ⟨hcs, hwr, hrd, hddir⟩

theorem Pins.Quiet.run_writeCycle {p : Pins} (h : p.Quiet) (k : BusKind) (b : Byte) : (p.run (writeCycle k b)).Quiet :=
  ⟨rfl, rfl, h.rd, h.ddir⟩

theorem Pins.Quiet.run_readCycle {p : Pins} (h : p.Quiet) (dummy v : Byte) : (p.run (readCycle dummy v)).Quiet :=
  ⟨rfl, h.wr, rfl, rfl⟩

theorem Pins.Quiet.with_res {p : Pins} (h : p.Quiet) (res : Bool) : { p with res := res }.Quiet := ⟨h.cs, h.wr, h.rd, h.ddir⟩

theorem State.busWrite_pins_of_set {s : State} (k : BusKind) (b : Byte) (hset : s.pinsSet = true) :
    (s.busWrite k b).pins = s.pins.run (writeCycle k b) := State.pinsAfter_of_set hset _

theorem State.busRead_pins_of_set {s : State} (hset : s.pinsSet = true) :
    s.busRead.pins = s.pins.run (readCycle (Config.draw8 s.draws) s.readValue) := State.pinsAfter_of_set hset _

theorem State.quiet_runTxn (s : State) (v : Byte) (t : Txn) (hset : s.pinsSet = true) (h : s.pins.Quiet) : (s.runTxn v t).pins.Quiet := by
  cases t with
  | write k b => exact State.busWrite_pins_of_set k b hset ▸ h.run_writeCycle k b
  | writeBack mask => exact State.busWrite_pins_of_set .data (v &&& mask) hset ▸ h.run_writeCycle .data (v &&& mask)
  | read => exact State.busRead_pins_of_set hset ▸ h.run_readCycle _ _
  | pinSetup => exact ⟨rfl, rfl, rfl, rfl⟩
  | resAssert => simpa [State.runTxn, hset] using h.with_res true
  | resRelease => simpa [State.runTxn, hset] using h.with_res false
  | delay d => exact h

/-! ### The observer (R127) -/

theorem Pins.Quiet.recognise_writeCycle {p : Pins} (h : p.Quiet) (k : BusKind) (b : Byte) (rest : List Pins) :
    p.recognise false (p.history (writeCycle k b) ++ rest) = k.event b :: (p.run (writeCycle k b)).recognise false rest := by
  cases k <;>
    simp [writeCycle, Pins.history, Pins.run, Pins.recognise, Pins.apply, h.wr, h.rd, h.ddir, BusKind.event]

/-- The dummy strobe is the first of the pair and gives no event (R124). -/
theorem Pins.Quiet.recognise_readCycle {p : Pins} (h : p.Quiet) (dummy v : Byte) (rest : List Pins) :
    p.recognise false (p.history (readCycle dummy v) ++ rest) = .read v :: (p.run (readCycle dummy v)).recognise false rest := by
  simp [readCycle, Pins.history, Pins.run, Pins.recognise, Pins.apply, h.wr, h.rd]

/-- Between two quiet pin states the observer sees nothing. -/
theorem Pins.Quiet.recognise_cons {p q : Pins} (hp : p.Quiet) (hq : q.Quiet) (rest : List Pins) :
    p.recognise false (q :: rest) = q.recognise false rest := by
  simp [Pins.recognise, hp.wr, hq.rd]

/-- A transaction appends one event, and the observer recognises it where it is a bus transaction. -/
theorem State.recognise_txnPins (s : State) (v : Byte) (t : Txn) (hset : s.pinsSet = true) (h : s.pins.Quiet) :
    ∃ e, (s.runTxn v t).trace = s.trace ++ [e] ∧ ∀ rest,
      s.pins.recognise false (s.txnPins v t ++ rest) = [e].filter Event.isBus ++ (s.runTxn v t).pins.recognise false rest := by
  have hquiet := s.quiet_runTxn v t hset h
  cases t with
  | write k b =>
    refine ⟨k.event b, rfl, fun rest => ?_⟩
    rw [State.runTxn, State.busWrite_pins_of_set k b hset]
    exact (h.recognise_writeCycle k b rest).trans (by cases k <;> rfl)
  | writeBack mask =>
    refine ⟨.data (v &&& mask), rfl, fun rest => ?_⟩
    rw [State.runTxn, State.busWrite_pins_of_set .data (v &&& mask) hset]
    exact h.recognise_writeCycle .data (v &&& mask) rest
  | read =>
    refine ⟨.read s.readValue, rfl, fun rest => ?_⟩
    rw [State.runTxn, State.busRead_pins_of_set hset]
    exact h.recognise_readCycle _ _ rest
  | _ => exact ⟨_, rfl, fun rest => h.recognise_cons hquiet rest⟩

theorem State.recognise_txnsPins (ts : List Txn) {s : State} (v : Byte) (hset : s.pinsSet = true) (h : s.pins.Quiet) :
    ∃ es, (s.runTxns v ts).1.trace = s.trace ++ es ∧ s.pins.recognise false (s.txnsPins v ts) = es.filter Event.isBus := by
  induction ts generalizing s v with
  | nil => exact ⟨[], (List.append_nil _).symm, rfl⟩
  | cons t ts ih =>
    obtain ⟨e, htrace, hseen⟩ := s.recognise_txnPins v t hset h
    obtain ⟨es, htraces, hseens⟩ := ih (s.lastRead v t) (s.runTxn_pinsSet v t hset) (s.quiet_runTxn v t hset h)
    refine ⟨[e] ++ es, ?_, ?_⟩
    · rw [State.runTxns, htraces, htrace, List.append_assoc]
    · rw [State.txnsPins, hseen, hseens, List.filter_append]

/-- Settles O25: from a quiet bus the observer sees each transaction as its own event, and a lifecycle event as nothing. -/
theorem observerRecognisesTheTransactions : Obligations.ObserverRecognisesTheTransactions := by
  unfold Obligations.ObserverRecognisesTheTransactions
  intro i s hset hidle
  by_cases hc : s.check i = .ok
  · obtain ⟨es, htrace, hseen⟩ := State.recognise_txnsPins (s.txns i) 0#8 hset (Pins.quiet_of_idle hidle)
    exact ⟨_, es, exec_of_check_ok 0#8 hc, (State.finish_trace ..).trans htrace, pinHistory_begin_of_check_ok hset hc ▸ hseen⟩
  · exact ⟨_, [], exec_of_check_ne_ok hc, (List.append_nil _).symm, pinHistory_begin_of_check_ne_ok hc ▸ rfl⟩

/-! ### Settling and ordering (R126) -/

theorem Pins.Quiet.settled_writeCycle {p : Pins} (h : p.Quiet) (k : BusKind) (b : Byte) (rest : List Pins) :
    p.settledAlong (p.history (writeCycle k b) ++ rest) = (p.run (writeCycle k b)).settledAlong rest := by
  simp [writeCycle, Pins.history, Pins.run, Pins.settledAlong, Pins.settled, Pins.apply, h.wr, h.rd, h.ddir]

theorem Pins.Quiet.settled_readCycle {p : Pins} (h : p.Quiet) (dummy v : Byte) (rest : List Pins) :
    p.settledAlong (p.history (readCycle dummy v) ++ rest) = (p.run (readCycle dummy v)).settledAlong rest := by
  simp [readCycle, Pins.history, Pins.run, Pins.settledAlong, Pins.settled, Pins.apply, h.wr, h.rd]

/-- Between two quiet pin states no strobe is asserted. -/
theorem Pins.Quiet.settled_cons {p q : Pins} (hp : p.Quiet) (hq : q.Quiet) (rest : List Pins) :
    p.settledAlong (q :: rest) = q.settledAlong rest := by
  simp [Pins.settledAlong, Pins.settled, hp.wr, hp.rd, hq.wr, hq.rd]

theorem State.settled_txnPins (s : State) (v : Byte) (t : Txn) (hset : s.pinsSet = true) (h : s.pins.Quiet) (rest : List Pins) :
    s.pins.settledAlong (s.txnPins v t ++ rest) = (s.runTxn v t).pins.settledAlong rest := by
  have hquiet := s.quiet_runTxn v t hset h
  cases t with
  | write k b =>
    rw [State.runTxn, State.busWrite_pins_of_set k b hset]
    exact h.settled_writeCycle k b rest
  | writeBack mask =>
    rw [State.runTxn, State.busWrite_pins_of_set .data (v &&& mask) hset]
    exact h.settled_writeCycle .data (v &&& mask) rest
  | read =>
    rw [State.runTxn, State.busRead_pins_of_set hset]
    exact h.settled_readCycle _ _ rest
  | _ => exact h.settled_cons hquiet rest

theorem State.settled_txnsPins (ts : List Txn) {s : State} (v : Byte) (hset : s.pinsSet = true) (h : s.pins.Quiet) :
    s.pins.settledAlong (s.txnsPins v ts) = true := by
  induction ts generalizing s v with
  | nil => rfl
  | cons t ts ih =>
    rw [State.txnsPins, s.settled_txnPins v t hset h]
    exact ih (s.lastRead v t) (s.runTxn_pinsSet v t hset) (s.quiet_runTxn v t hset h)

/-- Settles O26: from a quiet bus each transaction settles its lines and leaves the bus quiet for the next. -/
theorem everyRequestSettlesBeforeItsStrobes : Obligations.EveryRequestSettlesBeforeItsStrobes := by
  unfold Obligations.EveryRequestSettlesBeforeItsStrobes
  intro i s hset hidle
  by_cases hc : s.check i = .ok
  · rw [pinHistory_begin_of_check_ok hset hc]
    exact State.settled_txnsPins (s.txns i) 0#8 hset (Pins.quiet_of_idle hidle)
  · rw [pinHistory_begin_of_check_ne_ok hc]
    rfl

/-! ### Writes and the controller (R128) -/

/-- The same block with another environment on its pins. -/
def State.withCtrl (s : State) (x : Ctrl) : State := { s with ctrl := x }

theorem State.check_withCtrl (s : State) (x : Ctrl) (i : Instr) : (s.withCtrl x).check i = s.check i := by
  cases i <;> rfl

theorem State.txns_withCtrl (s : State) (x : Ctrl) (i : Instr) : (s.withCtrl x).txns i = s.txns i := by
  cases i <;> rfl

theorem State.read_not_mem_txns (s : State) {i : Instr} (hread : i ≠ .rdata) (hclear : ∀ a b, i ≠ .clearPixel a b) :
    Txn.read ∉ s.txns i := by
  cases i with
  | rdata => exact absurd rfl hread
  | clearPixel x y => exact absurd rfl (hclear x y)
  | putChar c => simp only [State.txns]; split <;> simp [addrSeqTxns]
  | _ => simp [State.txns, screenTxns, addrSeqTxns]

/-- A transaction other than a read does to the block what it does with any other environment. -/
theorem State.runTxn_withCtrl (s : State) (x : Ctrl) (v : Byte) {t : Txn} (h : t ≠ .read) :
    (∃ y, (s.withCtrl x).runTxn v t = (s.runTxn v t).withCtrl y) ∧ (s.withCtrl x).lastRead v t = s.lastRead v t := by
  cases t with
  | read => exact absurd rfl h
  | _ => exact ⟨⟨_, rfl⟩, rfl⟩

theorem State.runTxns_withCtrl (ts : List Txn) (s : State) (x : Ctrl) (v : Byte) (h : Txn.read ∉ ts) :
    ∃ y, (s.withCtrl x).runTxns v ts = ((s.runTxns v ts).1.withCtrl y, (s.runTxns v ts).2) := by
  induction ts generalizing s x v with
  | nil => exact ⟨x, rfl⟩
  | cons t ts ih =>
    obtain ⟨hhead, htail⟩ := not_or.1 (mt List.mem_cons.2 h)
    obtain ⟨⟨y, hrun⟩, hlast⟩ := s.runTxn_withCtrl x v (Ne.symm hhead)
    simp only [State.runTxns, hrun, hlast]
    exact ih _ y _ htail

theorem State.finish_withCtrl (s : State) (x : Ctrl) (i : Instr) (v : Byte) :
    ∃ y, (s.withCtrl x).finish i v = (s.finish i v).withCtrl y := by
  cases i with
  | putChar c =>
    by_cases hw : wraps c s.col = true
    · rw [State.finish_putChar_of_wraps v hw, State.finish_putChar_of_wraps (s := s.withCtrl x) v hw]
      exact ⟨x, rfl⟩
    · rw [State.finish_putChar_of_not_wraps v hw, State.finish_putChar_of_not_wraps (s := s.withCtrl x) v hw]
      exact ⟨x, rfl⟩
  | _ => exact ⟨_, rfl⟩

/-- Settles O19: of the transactions only a read returns anything of the environment, and only RDATA and CLEAR_PIXEL have one. -/
theorem writesNeverDependOnTheController : Obligations.WritesNeverDependOnTheController := by
  unfold Obligations.WritesNeverDependOnTheController
  intro i s x hread hclear
  by_cases hc : s.check i = .ok
  · obtain ⟨y, hruns⟩ := State.runTxns_withCtrl (s.txns i) s x 0#8 (s.read_not_mem_txns hread hclear)
    obtain ⟨z, hfinish⟩ := State.finish_withCtrl (s.runTxns 0#8 (s.txns i)).1 y i (s.runTxns 0#8 (s.txns i)).2
    refine ⟨_, z, exec_of_check_ok 0#8 hc, ?_⟩
    have hex := exec_of_check_ok (s := s.withCtrl x) 0#8 ((s.check_withCtrl x i).trans hc)
    rw [State.txns_withCtrl, hruns, hfinish] at hex
    exact hex
  · refine ⟨_, x, exec_of_check_ne_ok hc, ?_⟩
    have hex := exec_of_check_ne_ok (s := s.withCtrl x) (i := i) (by rwa [State.check_withCtrl])
    rw [State.check_withCtrl] at hex
    exact hex

/-! ### WCMD, WDATA and RDATA (R122, R123, R125) -/

theorem State.pinsView_busWrite (s : State) (k : BusKind) (b : Byte) :
    (s.busWrite k b).pinsView = s.pinsView.map (·.run (writeCycle k b)) := by
  cases hset : s.pinsSet <;> simp [State.pinsView, State.pinsAfter, hset]

theorem State.pinsView_busRead (s : State) :
    s.busRead.pinsView = s.pinsView.map (·.run (readCycle (Config.draw8 s.draws) s.readValue)) := by
  cases hset : s.pinsSet <;> simp [State.pinsView, State.pinsAfter, hset]

theorem State.displayByte_eq_some_iff {s : State} {a : Nat} {v : Byte} :
    s.displayByte a = some v ↔ ∃ c, s.ctrl = .specified c ∧ c.mem.read a = v := by
  cases hctrl : s.ctrl <;> simp [State.displayByte, hctrl]

theorem sameDisplay_of_mem {s t : State} (h : ∀ c', t.ctrl = .specified c' → ∃ c, s.ctrl = .specified c ∧ c'.mem = c.mem) :
    sameDisplay s t := by
  intro a v hread
  obtain ⟨c', ht, rfl⟩ := State.displayByte_eq_some_iff.1 hread
  obtain ⟨c, hs, hmem⟩ := h c' ht
  exact State.displayByte_eq_some_iff.2 ⟨c, hs, hmem ▸ rfl⟩

/-- A command byte changes no display byte: it goes on framing, or it completes a command (R67 to R70). -/
theorem Ctrl.onWrite_cmd_mem {cfg : Config} {x : Ctrl} {b : Byte} {c' : Controller} (h : x.onWrite cfg .cmd b = .specified c') :
    ∃ c, x = .specified c ∧ c'.mem = c.mem := by
  cases x with
  | unspecified => cases h
  | specified c =>
    refine ⟨c, rfl, ?_⟩
    obtain ⟨p, hframe⟩ | ⟨cmd, args, hframe⟩ := frame_pending_or_command cfg c.pend b
    · rw [Ctrl.onWrite_cmd_of_pending hframe] at h
      cases h
      rfl
    · rw [Ctrl.onWrite_cmd_of_command hframe] at h
      exact (Controller.execute_keeps h).1

/-- A read changes no display byte: it advances the pointer at most (R73). -/
theorem Ctrl.afterRead_mem {cfg : Config} {x : Ctrl} {c' : Controller} (h : x.afterRead cfg = .specified c') :
    ∃ c, x = .specified c ∧ c'.mem = c.mem := by
  cases x with
  | unspecified => cases h
  | specified c =>
    refine ⟨c, rfl, ?_⟩
    cases hpend : c.pend with
    | some p => simp [Ctrl.afterRead, hpend] at h
    | none =>
      rw [Ctrl.afterRead_specified cfg hpend] at h
      cases h
      exact Controller.advance_mem cfg c

/-- A data byte changes the display byte at the pointer alone (R71). -/
theorem Ctrl.onWrite_data_mem {cfg : Config} {c c' : Controller} {b : Byte} (h : Ctrl.onWrite cfg .data b (.specified c) = .specified c') :
    c'.mem = c.mem.write c.addr b := by
  cases hpend : c.pend with
  | some p => simp [Ctrl.onWrite, Controller.onData, hpend] at h
  | none =>
    rw [Ctrl.onWrite_data cfg b hpend] at h
    cases h
    exact Controller.advance_mem cfg _

/-- Settles O28: the request is one command write cycle, and a command byte leaves display memory. -/
theorem wcmdSendsOneCommandByte : Obligations.WcmdSendsOneCommandByte := by
  unfold Obligations.WcmdSendsOneCommandByte
  intro b s
  exact ⟨_, rfl, rfl, rfl, rfl, rfl, s.pinsView_busWrite .cmd b, ⟨rfl, rfl⟩, ⟨rfl, rfl⟩, ⟨rfl, rfl, rfl⟩,
    sameDisplay_of_mem fun _ => Ctrl.onWrite_cmd_mem, rfl, rfl⟩

/-- Settles O29: the request is one data write cycle, which writes display memory at the pointer alone. -/
theorem wdataSendsOneDataByte : Obligations.WdataSendsOneDataByte := by
  unfold Obligations.WdataSendsOneDataByte
  intro b s
  refine ⟨_, rfl, rfl, rfl, rfl, s.pinsView_busWrite .data b, ⟨rfl, rfl⟩, ⟨rfl, rfl⟩, ⟨rfl, rfl, rfl⟩, rfl, rfl,
    fun c hs a v ha hread => ?_⟩
  obtain ⟨c', ht, rfl⟩ := State.displayByte_eq_some_iff.1 hread
  have hwrite : Ctrl.onWrite s.cfg .data b (.specified c) = .specified c' := hs ▸ ht
  rw [Ctrl.onWrite_data_mem hwrite, Memory.read_write_other ha]

/-- Settles O30: the request is one read cycle, whose byte goes to RDOUT, TRACE and DIN; its dummy strobe takes a draw. -/
theorem rdataReturnsTheByteRead : Obligations.RdataReturnsTheByteRead := by
  unfold Obligations.RdataReturnsTheByteRead
  intro s
  have hdraws : s.draws < s.busRead.draws := by rw [State.busRead_draws]; omega
  exact ⟨_, s.readValue, rfl, rfl, rfl, rfl, rfl, s.pinsView_busRead, ⟨rfl, rfl⟩, ⟨rfl, rfl, rfl⟩,
    sameDisplay_of_mem fun _ => Ctrl.afterRead_mem, rfl, hdraws⟩

end Sys2Proof.Machine
end

section
/-! PROOFS. The address engine (41_addressing.md): its bounds, the addressing sequence's pins and frame, and what GOTO_PIXEL and GOTO_LINE do in
range and out of range. -/

namespace Sys2Proof.Machine

/-! ### Bounds and the page of a pixel row (R51, R141) -/

theorem pixelOK_iff {x y : Byte} : pixelOK x y = true ↔ x.toNat < 128 ∧ y.toNat < 64 := by simp [pixelOK]

theorem lineOK_iff {l : Byte} : lineOK l = true ↔ l.toNat < 8 := by simp [lineOK]

@[simp] theorem toNat_pageOf (y : Byte) : (pageOf y).toNat = y.toNat / 8 := BitVec.toNat_udiv

theorem pageOf_eq_ofNat (y : Byte) : pageOf y = BitVec.ofNat 8 (y.toNat / 8) := by
  rw [← toNat_pageOf, BitVec.ofNat_toNat, BitVec.setWidth_eq]

theorem pageOf_lineStart {l : Byte} (hl : l.toNat < 8) : pageOf (BitVec.ofNat 8 (l.toNat * 8)) = l := by
  apply BitVec.eq_of_toNat_eq
  rw [toNat_pageOf, BitVec.toNat_ofNat]
  omega

/-! ### Each request in range and out of range (R142, R143) -/

theorem exec_gotoPixel_of_inRange {x y : Byte} (s : State) (hx : x.toNat < 128) (hy : y.toNat < 64) :
    exec (.gotoPixel x y) s = .next (s.addrSeq x (pageOf y)).complete := if_pos (pixelOK_iff.2 ⟨hx, hy⟩)

theorem exec_gotoPixel_of_outOfRange {x y : Byte} (s : State) (h : 128 ≤ x.toNat ∨ 64 ≤ y.toNat) :
    exec (.gotoPixel x y) s = .next (s.raiseStatus .outOfBounds) :=
  if_neg fun hok => by obtain ⟨hx, hy⟩ := pixelOK_iff.1 hok; omega

theorem exec_gotoLine_of_inRange {l : Byte} (s : State) (hl : l.toNat < 8) :
    exec (.gotoLine l) s = .next ((s.addrSeq 0#8 l).gotoLineCursor (l.setWidth 3)).complete := if_pos (lineOK_iff.2 hl)

theorem exec_gotoLine_of_outOfRange {l : Byte} (s : State) (h : 8 ≤ l.toNat) :
    exec (.gotoLine l) s = .next (s.raiseStatus .outOfBounds) := if_neg fun hok => Nat.not_lt.2 h (lineOK_iff.1 hok)

/-! ### The addressing sequence (R140) -/

/-- Command bytes change no display byte (R67 to R70). -/
theorem Ctrl.onWrites_cmd_mem {cfg : Config} {x : Ctrl} {bs : List Byte} {c' : Controller}
    (h : x.onWrites cfg .cmd bs = .specified c') : ∃ c, x = .specified c ∧ c'.mem = c.mem := by
  induction bs generalizing x with
  | nil => exact ⟨c', h, rfl⟩
  | cons b bs ih =>
    obtain ⟨d, hd, hmem⟩ := ih h
    obtain ⟨c, hc, hmem'⟩ := Ctrl.onWrite_cmd_mem hd
    exact ⟨c, hc, hmem.trans hmem'⟩

theorem State.addrSeq_sameDisplay (s : State) (x p : Byte) : sameDisplay s (s.addrSeq x p) :=
  sameDisplay_of_mem fun _ ht => Ctrl.onWrites_cmd_mem ((s.addrSeq_ctrl x p).symm.trans ht)

/-- Of the four write cycles the last one's byte stays on the data group. -/
theorem State.pinsView_addrSeq (s : State) (x p : Byte) :
    (s.addrSeq x p).pinsView =
      s.pinsView.map fun q => { q with cs := false, dc := false, wr := false, dout := s.cfg.cmdPageStart ||| p } := by
  simp only [State.addrSeq, addrSeqBytes, State.busWriteAll_cons, State.busWriteAll_nil, State.pinsView_busWrite, Option.map_map]
  rfl

/-- Under well-formed parameters the sequence places the pointer at column `x` of page `p` (R145). -/
theorem State.addrSeq_placesThePointer {s : State} {c : Controller} {x p : Byte} (hwf : s.cfg.wellFormed = true)
    (hs : s.ctrl = .specified c) (hpend : c.pend = none) (hx : x.toNat < 128) (hp : p.toNat < 8) :
    ∃ c', (s.addrSeq x p).ctrl = .specified c' ∧ c'.cptr.toNat = x.toNat ∧ c'.pptr.toNat = p.toNat ∧ c'.cstart.toNat = x.toNat ∧
      c'.cend.toNat = 127 ∧ c'.mem = c.mem ∧ c'.pend = none := by
  have hctrl := s.addrSeq_ctrl x p
  rw [hs, Ctrl.onWrites_addrSeqBytes hwf hpend hx hp] at hctrl
  have hcol : (x.setWidth 7).toNat = x.toNat := (BitVec.toNat_setWidth ..).trans (Nat.mod_eq_of_lt hx)
  have hpage : (p.setWidth 3).toNat = p.toNat := (BitVec.toNat_setWidth ..).trans (Nat.mod_eq_of_lt hp)
  exact ⟨_, hctrl, hcol, hpage, hcol, rfl, rfl, hpend⟩

/-! ### The end of either request: pins and display bytes stay, and the cursor moves under the parameter alone (R144) -/

@[simp] theorem State.complete_pinsView (s : State) : s.complete.pinsView = s.pinsView := rfl
@[simp] theorem State.gotoLineCursor_pinsView (s : State) (l : BitVec 3) : (s.gotoLineCursor l).pinsView = s.pinsView := rfl
@[simp] theorem sameDisplay_complete {s t : State} : sameDisplay s t.complete ↔ sameDisplay s t := Iff.rfl
@[simp] theorem sameDisplay_gotoLineCursor {s t : State} (l : BitVec 3) : sameDisplay s (t.gotoLineCursor l) ↔ sameDisplay s t := Iff.rfl

/-- The cursor write of GOTO_LINE is the cursor at the line's start, exactly under the parameter (R144). -/
theorem State.gotoLineCursor_eq (s : State) (l : BitVec 3) :
    s.gotoLineCursor l = if s.cfg.gotoLineSetsCursor then s.setCursor l else s := by
  cases hparam : s.cfg.gotoLineSetsCursor <;> simp [State.gotoLineCursor, State.setCursor, hparam]

/-! ### GOTO_PIXEL and GOTO_LINE -/

/-- Settles O37: in range the request is the addressing sequence of the pixel's page, and out of range it raises the status. -/
theorem gotoPixelIssuesTheAddressingSequence : Obligations.GotoPixelIssuesTheAddressingSequence := by
  unfold Obligations.GotoPixelIssuesTheAddressingSequence
  intro x y s
  refine ⟨exec_gotoPixel_of_outOfRange s, fun hx hy => ⟨_, exec_gotoPixel_of_inRange s hx hy, ?_⟩⟩
  simp [pageOf_eq_ofNat, sameCursor, sameRdout, sameHostSide, State.pinsView_addrSeq, State.addrSeq_sameDisplay]

/-- Settles O38: in range the request is the addressing sequence of the line's page and the cursor write, and out of range it raises the status. -/
theorem gotoLineIssuesTheAddressingSequence : Obligations.GotoLineIssuesTheAddressingSequence := by
  unfold Obligations.GotoLineIssuesTheAddressingSequence
  intro l s
  refine ⟨exec_gotoLine_of_outOfRange s, fun hl => ⟨_, exec_gotoLine_of_inRange s hl, ?_⟩⟩
  have hline : (l.setWidth 3).toNat = l.toNat := (BitVec.toNat_setWidth ..).trans (Nat.mod_eq_of_lt hl)
  cases hparam : s.cfg.gotoLineSetsCursor <;>
    simp [hparam, hline, sameCursor, sameRdout, sameHostSide, State.pinsView_addrSeq, State.addrSeq_sameDisplay]

/-- Settles O39: row line*8 lies in page line, so both requests issue the same sequence, and the cursor write is the one difference. -/
theorem gotoLineEqualsGotoPixelAtTheLine : Obligations.GotoLineEqualsGotoPixelAtTheLine := by
  unfold Obligations.GotoLineEqualsGotoPixelAtTheLine
  intro l s hl
  have hrow : (BitVec.ofNat 8 (l.toNat * 8)).toNat < 64 := by rw [BitVec.toNat_ofNat]; omega
  refine ⟨_, exec_gotoPixel_of_inRange s (by decide) hrow, ?_⟩
  rw [exec_gotoLine_of_inRange s hl, pageOf_lineStart hl, State.gotoLineCursor_eq, State.addrSeq_cfg, BitVec.ofNat_toNat]
  split <;> rfl

/-- Settles O40: in range the sequence places the pointer, and out of range the environment receives nothing. -/
theorem validRepositionPlacesThePointer : Obligations.ValidRepositionPlacesThePointer := by
  unfold Obligations.ValidRepositionPlacesThePointer
  intro s c hwf hs hpend
  refine ⟨fun x y hx hy => ?_, fun l hl => ?_, fun x y h => ⟨_, exec_gotoPixel_of_outOfRange s h, rfl⟩,
    fun l h => ⟨_, exec_gotoLine_of_outOfRange s h, rfl⟩⟩
  · obtain ⟨c', hctrl, hplace⟩ := State.addrSeq_placesThePointer hwf hs hpend hx (p := pageOf y) (by rw [toNat_pageOf]; omega)
    exact ⟨_, c', exec_gotoPixel_of_inRange s hx hy, hctrl, toNat_pageOf y ▸ hplace⟩
  · obtain ⟨c', hctrl, hplace⟩ := State.addrSeq_placesThePointer hwf hs hpend (x := 0#8) (by decide) hl
    exact ⟨_, c', exec_gotoLine_of_inRange s hl, hctrl, hplace⟩

end Sys2Proof.Machine
end

section
/-! PROOFS. The text cursor (42_text_cursor.md): the two branches of PUT_CHAR, what moves COL and LINE at all, a whole line of text; and
CLEAR_SCREEN (43_graphics.md R173), which leaves the cursor. -/

namespace Sys2Proof.Machine

/-! ### The two branches of PUT_CHAR (R151, R155) -/

theorem wraps_eq_true {c : Byte} {col : BitVec 5} (h : c = 0x0A#8 ∨ 21 ≤ col.toNat) : wraps c col = true :=
  (Bool.or_eq_true ..).mpr (h.imp beq_iff_eq.2 decide_eq_true)

theorem exec_putChar_of_wraps {c : Byte} {s : State} (h : c = 0x0A#8 ∨ 21 ≤ s.col.toNat) :
    exec (.putChar c) s = .next s.wrapLine.complete := if_pos (wraps_eq_true h)

theorem exec_putChar_of_not_wraps {c : Byte} {s : State} (hc : c ≠ 0x0A#8) (hcol : s.col.toNat < 21) :
    exec (.putChar c) s = .next (s.renderGlyph c).complete := if_neg (by simp [wraps_eq_false hc hcol])

/-! ### The wrap branch (R152) -/

/-- LINE + 1 modulo 8 is the page that the addressing of the new line names. -/
theorem setWidth_nextLine (l : BitVec 3) : (l + 1#3).setWidth 8 = BitVec.ofNat 8 ((l.toNat + 1) % 8) :=
  BitVec.eq_of_toNat_eq (by simp)

@[simp] theorem State.setCursor_pinsView (s : State) (l : BitVec 3) : (s.setCursor l).pinsView = s.pinsView := rfl

@[simp] theorem State.wrapLine_trace (s : State) :
    s.wrapLine.trace = s.trace ++ [Event.cmd s.cfg.cmdSetColumn, Event.cmd 0#8, Event.cmd 127#8,
      Event.cmd (s.cfg.cmdPageStart ||| BitVec.ofNat 8 ((s.line.toNat + 1) % 8))] := by
  simp [State.wrapLine, setWidth_nextLine]

theorem State.wrapLine_pinsView (s : State) :
    s.wrapLine.pinsView = s.pinsView.map fun p => { p with
      cs := false, dc := false, wr := false, dout := s.cfg.cmdPageStart ||| BitVec.ofNat 8 ((s.line.toNat + 1) % 8) } := by
  simp [State.wrapLine, setWidth_nextLine, State.pinsView_addrSeq]

theorem State.wrapLine_sameDisplay (s : State) : sameDisplay s s.wrapLine :=
  State.addrSeq_sameDisplay (s.setCursor (s.line + 1#3)) _ _

/-- Settles O41: the branch is the cursor at the start of the next line and that line's addressing sequence. -/
theorem putCharWrapsAtNewlineOrFullLine : Obligations.PutCharWrapsAtNewlineOrFullLine := by
  unfold Obligations.PutCharWrapsAtNewlineOrFullLine
  intro c s h
  refine ⟨_, exec_putChar_of_wraps h, ?_⟩
  simp [sameRdout, sameHostSide, State.wrapLine_pinsView, State.wrapLine_sameDisplay]

/-- Settles O44: at a full line the character plays no part in the branch taken. -/
theorem aFullLineTakesEveryCharacterAsNewline : Obligations.AFullLineTakesEveryCharacterAsNewline := by
  unfold Obligations.AFullLineTakesEveryCharacterAsNewline
  intro c s hcol
  have hfull : 21 ≤ s.col.toNat := by rw [hcol]; decide
  have hex := exec_putChar_of_wraps (c := c) (.inr hfull)
  exact ⟨hex.trans (exec_putChar_of_wraps (.inl rfl)).symm, _, hex, s.wrapLine_col, s.wrapLine_line⟩

/-! ### The render branch (R153, R154) -/

theorem toNat_col_succ {col : BitVec 5} (h : col.toNat < 21) : (col + 1#5).toNat = col.toNat + 1 := by bv_omega

theorem glyphBytes_of_printable {s : State} {c : Byte} (h : printable c = true) :
    s.glyphBytes c = (List.finRange 5).map (glyphByte s.cfg c) := if_pos h

theorem printable_iff {c : Byte} : printable c = true ↔ 32 ≤ c.toNat ∧ c.toNat ≤ 126 := by simp [printable]

/-- The five `GLYPH` bytes of a printable code are the glyph resource's entry at index `c - 32` (R50, R153). -/
theorem glyph_entry (cfg : Config) {c : Byte} (h : c.toNat - 32 < 95) :
    (cfg.glyph[c.toNat - 32]).toList = (List.finRange 5).map (glyphByte cfg c) := by
  apply List.ext_getElem
  · simp
  · intro k hk _
    simp [glyphByte, h]

/-- After a list of write cycles the pins are as its last one leaves them. -/
theorem State.pinsView_busWriteAll_concat (s : State) (k : BusKind) (bs : List Byte) (b : Byte) :
    (s.busWriteAll k (bs ++ [b])).pinsView = s.pinsView.map (·.run (writeCycle k b)) := by
  induction bs generalizing s with
  | nil => exact s.pinsView_busWrite k b
  | cons a bs ih =>
    rw [List.cons_append, State.busWriteAll_cons, ih, State.pinsView_busWrite, Option.map_map]
    simp only [Function.comp_def, Pins.run_writeCycle]

theorem State.renderGlyph_pinsView (s : State) (c : Byte) :
    (s.renderGlyph c).pinsView = s.pinsView.map fun p => { p with cs := false, dc := true, wr := false, dout := 0#8 } := by
  have hcycles : (s.renderGlyph c).pinsView = (s.busWriteAll .data (s.glyphBytes c ++ [0#8])).pinsView := by
    rw [State.busWriteAll_append]
    rfl
  exact hcycles.trans (s.pinsView_busWriteAll_concat ..)

/-- Settles O42: the branch is six data write cycles and COL + 1, and the glyph of a printable code is its entry in the resource. -/
theorem putCharRendersFiveColumnsAndASpacer : Obligations.PutCharRendersFiveColumnsAndASpacer := by
  unfold Obligations.PutCharRendersFiveColumnsAndASpacer
  intro c s hc hcol
  have hglyph (hlo : 32 ≤ c.toNat) (hhi : c.toNat ≤ 126) :
      (s.cfg.glyph.toList[c.toNat - 32]?).map Vector.toList = some (s.glyphBytes c) := by
    have hindex : c.toNat - 32 < 95 := by omega
    rw [glyphBytes_of_printable (printable_iff.2 ⟨hlo, hhi⟩), ← glyph_entry s.cfg hindex]
    simp [hindex]
  refine ⟨_, s.glyphBytes c, exec_putChar_of_not_wraps hc hcol, s.glyphBytes_length c, hglyph, ?_⟩
  simp [toNat_col_succ hcol, sameRdout, sameHostSide, State.renderGlyph_ctrl, State.renderGlyph_pinsView]

/-! ### Who moves the cursor (R160) -/

theorem State.runTxns_line (s : State) (v : Byte) (ts : List Txn) : (s.runTxns v ts).1.line = s.line := by
  induction ts generalizing s v with
  | nil => rfl
  | cons t ts ih =>
    have hone : (s.runTxn v t).line = s.line := by cases t <;> rfl
    exact (ih ..).trans hone

/-- The end of a request writes the cursor only for PUT_CHAR and, under the parameter, for GOTO_LINE. -/
theorem State.finish_cursor (s : State) {i : Instr} (v : Byte) (hput : ∀ c, i ≠ .putChar c)
    (hgoto : ∀ l, i = .gotoLine l → s.cfg.gotoLineSetsCursor = false) : sameCursor s (s.finish i v) := by
  cases i with
  | putChar c => exact absurd rfl (hput c)
  | gotoLine l => simp [sameCursor, State.finish, hgoto l rfl]
  | _ => exact ⟨rfl, rfl⟩

theorem sameCursor.trans {s t u : State} (hst : sameCursor s t) (htu : sameCursor t u) : sameCursor s u :=
  ⟨htu.1.trans hst.1, htu.2.trans hst.2⟩

/-- No transaction writes the cursor, and a GOTO_LINE out of range does not come to its end (R201). -/
theorem exec_cursor {i : Instr} {s t : State} (h : exec i s = .next t) (hput : ∀ c, i ≠ .putChar c)
    (hgoto : ∀ l, i = .gotoLine l → l.toNat < 8 → s.cfg.gotoLineSetsCursor = false) : sameCursor s t := by
  by_cases hc : s.check i = .ok
  · obtain rfl := Host.Outcome.next.inj ((exec_of_check_ok 0#8 hc).symm.trans h)
    have htxns : sameCursor s (s.runTxns 0#8 (s.txns i)).1 := ⟨s.runTxns_col .., s.runTxns_line ..⟩
    obtain ⟨hcfg, -⟩ := s.runTxns_hostSide 0#8 (s.txns i)
    refine htxns.trans (State.finish_cursor _ _ hput fun l hl => ?_)
    subst hl
    rw [hcfg]
    exact hgoto l rfl (by simpa [State.check, lineOK] using hc)
  · obtain rfl := Host.Outcome.next.inj ((exec_of_check_ne_ok hc).symm.trans h)
    exact ⟨rfl, rfl⟩

/-- A step that moves the cursor runs a request of the host: waiting and turning an illegal word away leave it (R95, R213). -/
theorem step_cursor_request {s t : State} (h : step s = .next t) (hmoved : ¬ sameCursor s t) :
    ∃ r rest i, s.host = r :: rest ∧ decode r.word = .ok i ∧ exec i (s.accept r rest) = .next t := by
  have hidle := State.idle_of_step h
  cases hhost : s.host with
  | nil =>
    obtain rfl := Host.Outcome.next.inj ((step_of_idle_nil hidle hhost).symm.trans h)
    exact absurd ⟨rfl, rfl⟩ hmoved
  | cons r rest =>
    cases hdec : decode r.word with
    | error e =>
      obtain rfl := Host.Outcome.next.inj ((step_of_decode_error hidle hhost hdec).symm.trans h)
      exact absurd ⟨rfl, rfl⟩ hmoved
    | ok i => exact ⟨r, rest, i, rfl, hdec, (step_of_decode_ok hidle hhost hdec).symm.trans h⟩

/-- Settles O14: of the requests a step can run, any other than these two leaves the cursor. -/
theorem onlyTextRequestsMoveTheCursor : Obligations.OnlyTextRequestsMoveTheCursor := by
  unfold Obligations.OnlyTextRequestsMoveTheCursor
  intro s t h hmoved
  obtain ⟨r, rest, i, hhost, hdec, hex⟩ := step_cursor_request h hmoved
  refine ⟨r, rest, hhost, ?_⟩
  by_contra hnone
  obtain ⟨hput, hgoto⟩ := not_or.1 hnone
  refine hmoved (exec_cursor (s := s.accept r rest) hex (fun c hi => hput ⟨c, hi ▸ hdec⟩) fun l hi hl => ?_)
  exact Bool.eq_false_iff.2 fun hparam => hgoto ⟨l, hi ▸ hdec, hl, hparam⟩

/-! ### A line of text (R156) -/

/-- The data bytes of printable characters: for each its glyph and the spacer (R154). -/
def textBytes (cfg : Config) (cs : List Byte) : List Byte :=
  cs.flatMap fun c => (List.finRange 5).map (glyphByte cfg c) ++ [0#8]

theorem textBytes_length (cfg : Config) (cs : List Byte) : (textBytes cfg cs).length = cs.length * 6 := by
  simp [textBytes, List.length_flatMap]

theorem execAll_append {is js : List Instr} {s t : State} (h : execAll is s = .next t) : execAll (is ++ js) s = execAll js t := by
  induction is generalizing s with
  | nil => cases h; rfl
  | cons i is ih =>
    simp only [List.cons_append, execAll] at h ⊢
    cases hex : exec i s with
    | next u => rw [hex] at h; exact ih h
    | fault f => simp [hex] at h
    | refused r => simp [hex] at h

theorem ne_newline_of_printable {c : Byte} (h : printable c = true) : c ≠ 0x0A#8 := by
  rintro rfl
  exact absurd h (by decide)

/-- Printable characters that fit in the line are all rendered, one after another. -/
theorem execAll_putString_of_fits {cs : List Byte} {s : State} (hcs : ∀ c ∈ cs, printable c = true)
    (hfit : s.col.toNat + cs.length ≤ 21) :
    ∃ t, execAll (Instr.putString cs) s = .next t ∧ t.trace = s.trace ++ (textBytes s.cfg cs).map .data ∧
      t.ctrl = s.ctrl.onWrites s.cfg .data (textBytes s.cfg cs) ∧ t.col.toNat = s.col.toNat + cs.length ∧ t.line = s.line ∧
      t.cfg = s.cfg := by
  induction cs generalizing s with
  | nil => exact ⟨s, rfl, (List.append_nil _).symm, rfl, rfl, rfl, rfl⟩
  | cons c cs ih =>
    obtain ⟨hc, hcs⟩ := List.forall_mem_cons.1 hcs
    rw [List.length_cons] at hfit
    have hroom : s.col.toNat < 21 := by omega
    have hex := exec_putChar_of_not_wraps (s := s) (ne_newline_of_printable hc) hroom
    have hcol : (s.renderGlyph c).complete.col.toNat = s.col.toNat + 1 :=
      (congrArg _ (s.renderGlyph_col c)).trans (toNat_col_succ hroom)
    obtain ⟨t, hrest, htrace, hctrl, hend, hline, hcfg⟩ := ih (s := (s.renderGlyph c).complete) hcs (by omega)
    have hbytes : textBytes s.cfg (c :: cs) = (s.glyphBytes c ++ [0#8]) ++ textBytes s.cfg cs := by
      rw [glyphBytes_of_printable hc]
      exact List.flatMap_cons
    refine ⟨t, ?_, ?_, ?_, ?_, hline.trans (s.renderGlyph_line c), hcfg.trans (s.renderGlyph_cfg c)⟩
    · simpa [Instr.putString, execAll, hex] using hrest
    · simp [htrace, hbytes]
    · simp [hctrl, hbytes, Ctrl.onWrites_append, State.renderGlyph_ctrl]
    · rw [hend, hcol, List.length_cons]
      omega

/-- Data bytes leave no command pending. -/
theorem Ctrl.onWrites_data_specified (cfg : Config) {c : Controller} (bs : List Byte) (hpend : c.pend = none) :
    ∃ c', Ctrl.onWrites cfg .data bs (.specified c) = .specified c' ∧ c'.pend = none := by
  induction bs generalizing c with
  | nil => exact ⟨c, rfl, hpend⟩
  | cons b bs ih =>
    rw [Ctrl.onWrites_cons, Ctrl.onWrite_data cfg b hpend]
    exact ih ((Controller.advance_pend ..).trans hpend)

/-- The wrap branch places the pointer at column 0 of the new line's page (R145, R152). -/
theorem State.wrapLine_placesThePointer {s : State} {c : Controller} (hwf : s.cfg.wellFormed = true) (hs : s.ctrl = .specified c)
    (hpend : c.pend = none) :
    ∃ c', s.wrapLine.ctrl = .specified c' ∧ c'.cptr = 0#7 ∧ c'.pptr.toNat = (s.line.toNat + 1) % 8 := by
  have hpage : ((s.line + 1#3).setWidth 8).toNat = (s.line.toNat + 1) % 8 := by rw [setWidth_nextLine, BitVec.toNat_ofNat]; omega
  obtain ⟨c', hctrl, hcol, hline, -⟩ := State.addrSeq_placesThePointer (s := s.setCursor (s.line + 1#3)) hwf hs hpend
    (x := 0#8) (p := (s.line + 1#3).setWidth 8) (by decide) (by omega)
  exact ⟨c', hctrl, BitVec.eq_of_toNat_eq hcol, hline.trans hpage⟩

/-- Settles O45: the first 21 characters fit in the line, and the last one finds it full. -/
theorem theTwentySecondCharacterIsDropped : Obligations.TheTwentySecondCharacterIsDropped := by
  unfold Obligations.TheTwentySecondCharacterIsDropped
  intro s cs last hcol hlen hprint
  have hstart : s.col.toNat = 0 := by rw [hcol]; rfl
  obtain ⟨u, hex, htrace, hctrl, hend, hline, hcfg⟩ := execAll_putString_of_fits (s := s) (cs := cs)
    (fun c hc => printable_iff.2 (hprint c (List.mem_cons_of_mem _ hc))) (by omega)
  have hwrap : exec (.putChar last) u = .next u.wrapLine.complete := exec_putChar_of_wraps (.inr (by omega))
  refine ⟨u.wrapLine.complete, textBytes s.cfg cs, ?_, ?_, rfl, ?_, ?_, ?_, fun hwf c hs hpend => ?_⟩
  · rw [Instr.putString, List.map_append, ← Instr.putString, execAll_append hex]
    simp [execAll, hwrap]
  · rw [textBytes_length, hlen]
  · simp [htrace, hline, hcfg]
  · simp
  · simp [hline]
  · obtain ⟨d, hd, hdpend⟩ := Ctrl.onWrites_data_specified s.cfg (textBytes s.cfg cs) hpend
    rw [← hline]
    exact State.wrapLine_placesThePointer (hcfg ▸ hwf) (hctrl.trans (hs ▸ hd)) hdpend

/-! ### CLEAR_SCREEN (43_graphics.md R173)

The clear is known field by field, and the frame of its completion is its own, by terms that name both sides: left to find that by computation, the
kernel would run the 1024 write cycles. -/

theorem sameCursor_complete {s t : State} : sameCursor s t.complete ↔ sameCursor s t := Iff.rfl
theorem sameRdout_complete {s t : State} : sameRdout s t.complete ↔ sameRdout s t := Iff.rfl
theorem sameHostSide_complete {s t : State} : sameHostSide s t.complete ↔ sameHostSide s t := Iff.rfl

theorem exec_clearScreen (s : State) : exec .clearScreen s = .next s.clearScreen.complete := rfl

theorem State.clearScreen_trace (s : State) :
    s.clearScreen.trace = s.trace ++ [Event.cmd s.cfg.cmdSetColumn, Event.cmd 0#8, Event.cmd 127#8, Event.cmd s.cfg.cmdPageStart] ++
      List.replicate Config.displayBytes (Event.data 0#8) := by
  simp [State.clearScreen, BusKind.event]

theorem State.clearScreen_ctrl (s : State) :
    s.clearScreen.ctrl =
      (s.ctrl.onWrites s.cfg .cmd (addrSeqBytes s.cfg 0#8 0#8)).onWrites s.cfg .data (List.replicate Config.displayBytes 0#8) := by
  simp [State.clearScreen]

theorem State.clearScreen_pinsView (s : State) :
    s.clearScreen.pinsView = s.pinsView.map fun p => { p with cs := false, dc := true, wr := false, dout := 0#8 } := by
  rw [State.clearScreen, show Config.displayBytes = 1023 + 1 from rfl, List.replicate_succ', State.pinsView_busWriteAll_concat,
    State.pinsView_addrSeq, Option.map_map]
  rfl

/-- Settles O51: the request is the addressing sequence of (0,0) and 1024 data write cycles, and neither writes a register of the host's. -/
theorem clearScreenSendsZeroes : Obligations.ClearScreenSendsZeroes := by
  unfold Obligations.ClearScreenSendsZeroes
  intro s
  exact ⟨s.clearScreen.complete, exec_clearScreen s, (State.complete_trace _).trans s.clearScreen_trace,
    (State.complete_ctrl _).trans s.clearScreen_ctrl, State.complete_status _, State.complete_phase _, (State.complete_pinsView _).trans s.clearScreen_pinsView,
    sameCursor_complete.2 ⟨s.clearScreen_col, s.clearScreen_line⟩,
    sameRdout_complete.2 ⟨s.clearScreen_rdout, s.clearScreen_rdoutSet⟩,
    sameHostSide_complete.2 ⟨s.clearScreen_cfg, s.clearScreen_host, s.clearScreen_bitmapPort⟩,
    (State.complete_pinsSet _).trans s.clearScreen_pinsSet, (State.complete_draws _).trans s.clearScreen_draws⟩

end Sys2Proof.Machine
end

section
/-! PROOFS. The graphics requests (43_graphics.md): BLIT and CLEAR_PIXEL as write and read cycles from every state, and what CLEAR_PIXEL and
CLEAR_SCREEN leave at the reference controller. -/

namespace Sys2Proof.Machine

/-! ### The bit-clear mask (R172) -/

theorem getLsbD_clrMask (k : Nat) {j : Nat} (hj : j < 8) : (clrMask k).getLsbD j = !decide (j = k) := by
  have hone : (1#8 <<< k).getLsbD j = decide (j = k) := by
    rw [BitVec.getLsbD_shiftLeft, BitVec.getLsbD_one]
    grind
  rw [clrMask, BitVec.getLsbD_not, hone, decide_eq_true hj, Bool.true_and]

theorem getLsbD_and_clrMask (v : Byte) (k : Nat) {j : Nat} (hj : j < 8) :
    (v &&& clrMask k).getLsbD j = if j = k then false else v.getLsbD j := by
  rw [BitVec.getLsbD_and, getLsbD_clrMask k hj]
  by_cases hjk : j = k <;> simp [hjk]

/-- Settles O50: the table is eight values, and a bit of the mask is clear exactly at its index. -/
theorem clearMaskClearsItsBitAlone : Obligations.ClearMaskClearsItsBitAlone := by
  unfold Obligations.ClearMaskClearsItsBitAlone
  exact ⟨by decide, fun v k _ _ hj => getLsbD_and_clrMask v k hj⟩

/-! ### BLIT (R170) -/

theorem exec_blit_of_screen {s : State} (hlen : s.bitmapPort.length = Config.displayBytes) :
    exec .blit s = .next ((s.addrSeq 0#8 0#8).busWriteAll .data s.bitmapPort).complete := if_pos hlen

/-- After write cycles, at least one, the pins are as the last of them leaves them. -/
theorem State.pinsView_busWriteAll (s : State) (k : BusKind) {bs : List Byte} (hbs : bs ≠ []) :
    (s.busWriteAll k bs).pinsView = s.pinsView.map (·.run (writeCycle k (bs.getLast hbs))) := by
  conv_lhs => rw [← List.dropLast_append_getLast hbs]
  exact s.pinsView_busWriteAll_concat k bs.dropLast (bs.getLast hbs)

/-- Settles O46: the request is the addressing sequence of (0,0) and one data write cycle a byte, and neither writes a register of the host's. -/
theorem blitSendsTheFrameInOrder : Obligations.BlitSendsTheFrameInOrder := by
  unfold Obligations.BlitSendsTheFrameInOrder
  intro s hlen
  have hbytes : s.bitmapPort ≠ [] := by intro hnil; simp [hnil] at hlen
  refine ⟨_, exec_blit_of_screen hlen, ?_⟩
  simp [sameCursor, sameRdout, sameHostSide, BusKind.event, State.pinsView_busWriteAll _ _ hbytes, State.pinsView_addrSeq,
    Pins.run_writeCycle, List.getLast?_eq_some_getLast hbytes, Function.comp_def]

/-! ### CLEAR_PIXEL (R171) -/

/-- The transactions of CLEAR_PIXEL in range: position, read, position again, write back with the bit cleared. -/
def State.clearPixel (s : State) (x y : Byte) : State :=
  ((s.addrSeq x (pageOf y)).busRead.addrSeq x (pageOf y)).busWrite .data
    ((s.addrSeq x (pageOf y)).readValue &&& clrMask (bitOf y))

theorem exec_clearPixel_of_inRange {x y : Byte} (s : State) (hx : x.toNat < 128) (hy : y.toNat < 64) :
    exec (.clearPixel x y) s = .next (s.clearPixel x y).complete := if_pos (pixelOK_iff.2 ⟨hx, hy⟩)

/-- DIN keeps the byte read, and the byte written back stays on the data group (log 12). -/
theorem State.pinsView_clearPixel (s : State) (x y : Byte) :
    (s.clearPixel x y).pinsView = s.pinsView.map fun p => { p with
      cs := false, dc := true, wr := false, rd := false, ddir := .output, din := (s.addrSeq x (pageOf y)).readValue,
      dout := (s.addrSeq x (pageOf y)).readValue &&& clrMask (bitOf y) } := by
  simp only [State.clearPixel, State.pinsView_busWrite, State.pinsView_addrSeq, State.pinsView_busRead, Option.map_map]
  rfl

/-- Settles O48: the byte read goes to TRACE, DIN and, with its bit cleared, to the write back; the read cycle takes a draw. -/
theorem clearPixelReadsRepositionsAndWritesBack : Obligations.ClearPixelReadsRepositionsAndWritesBack := by
  unfold Obligations.ClearPixelReadsRepositionsAndWritesBack
  intro x y s hx hy
  have hdraws (n : Nat) : s.draws < s.draws + 1 + n := by omega
  refine ⟨_, (s.addrSeq x (pageOf y)).readValue, exec_clearPixel_of_inRange s hx hy, ?_⟩
  rw [State.complete_pinsView, State.pinsView_clearPixel]
  simp [State.clearPixel, BusKind.event, pageOf_eq_ofNat, clrMask, bitOf, sameCursor, sameRdout, sameHostSide, hdraws]

/-- Under well-formed parameters the sequence takes the pointer to the pixel's byte (R51, R145). -/
theorem State.addrSeq_standsAtThePixel {s : State} {c : Controller} {x y : Byte} (hwf : s.cfg.wellFormed = true)
    (hs : s.ctrl = .specified c) (hpend : c.pend = none) (hx : x.toNat < 128) (hy : y.toNat < 64) :
    ∃ d, (s.addrSeq x (pageOf y)).ctrl = .specified d ∧ d.addr = displayAddr (y.toNat / 8) x.toNat ∧ d.mem = c.mem ∧
      d.pend = none := by
  obtain ⟨d, hd, hcol, hpage, -, -, hmem, hdpend⟩ := State.addrSeq_placesThePointer hwf hs hpend hx (p := pageOf y)
    (by rw [toNat_pageOf]; omega)
  exact ⟨d, hd, by rw [Controller.addr, hcol, hpage, toNat_pageOf], hmem, hdpend⟩

/-- Both positions are the pixel's byte, so the byte read there is the one written back. -/
theorem State.clearPixel_ctrl {s : State} {c : Controller} {x y : Byte} (hwf : s.cfg.wellFormed = true)
    (hs : s.ctrl = .specified c) (hpend : c.pend = none) (hx : x.toNat < 128) (hy : y.toNat < 64) :
    ∃ c', (s.clearPixel x y).ctrl = .specified c' ∧ c'.pend = none ∧
      c'.mem = c.mem.write (displayAddr (y.toNat / 8) x.toNat)
        (c.mem.read (displayAddr (y.toNat / 8) x.toNat) &&& clrMask (bitOf y)) := by
  obtain ⟨d, hd, hdaddr, hdmem, hdpend⟩ := State.addrSeq_standsAtThePixel hwf hs hpend hx hy
  have hbyte : (s.addrSeq x (pageOf y)).readValue = c.mem.read (displayAddr (y.toNat / 8) x.toNat) := by
    rw [State.readValue, hd, Ctrl.envRead_specified _ hdpend, hdaddr, hdmem]
  have hread : (s.addrSeq x (pageOf y)).busRead.ctrl = .specified (Controller.advance s.cfg d) := by
    rw [State.busRead_ctrl, hd, Ctrl.afterRead_specified _ hdpend, State.addrSeq_cfg]
  obtain ⟨e, he, headdr, hemem, hepend⟩ := State.addrSeq_standsAtThePixel (s := (s.addrSeq x (pageOf y)).busRead) (by simpa using hwf)
    hread (by simpa using hdpend) hx hy
  have hwrite : (s.clearPixel x y).ctrl = .specified (Controller.advance s.cfg { e with
      mem := e.mem.write e.addr ((s.addrSeq x (pageOf y)).readValue &&& clrMask (bitOf y)) }) := by
    rw [State.clearPixel, State.busWrite_ctrl, he, Ctrl.onWrite_data _ _ hepend]
    simp only [State.addrSeq_cfg, State.busRead_cfg]
  refine ⟨_, hwrite, (Controller.advance_pend ..).trans hepend, ?_⟩
  rw [Controller.advance_mem, headdr, hemem, Controller.advance_mem, hdmem, hbyte]

/-- Settles O49: one byte is written, with the value it had but for the cleared bit. -/
theorem clearPixelClearsExactlyOneBit : Obligations.ClearPixelClearsExactlyOneBit := by
  unfold Obligations.ClearPixelClearsExactlyOneBit
  intro x y s c hwf hs hpend hm hx hy
  obtain ⟨c', hctrl, hpend', hmem⟩ := State.clearPixel_ctrl hwf hs hpend hx hy
  have hin : displayAddr (y.toNat / 8) x.toNat < Config.displayBytes := by
    simp only [displayAddr, Config.displayBytes]
    omega
  refine ⟨_, c', exec_clearPixel_of_inRange s hx hy, hctrl, ?_, hpend', fun j hj => ?_, fun a ha => ?_⟩
  · exact hmem ▸ Memory.wf_write hin _ hm
  · rw [hmem, Memory.read_write_same _ _ hm]
    exact getLsbD_and_clrMask _ _ hj
  · rw [hmem, Memory.read_write_other ha]

/-! ### CLEAR_SCREEN (R173) -/

/-- Settles O52: the clear takes the reference controller to the state INIT leaves, whose memory lists no byte. -/
theorem clearScreenZeroesTheDisplay : Obligations.ClearScreenZeroesTheDisplay := by
  unfold Obligations.ClearScreenZeroesTheDisplay
  intro s c hwf hs hpend hm
  have hctrl : s.clearScreen.ctrl = .specified Controller.afterInit := by
    rw [State.clearScreen_ctrl, hs, Ctrl.onWrites_clearScreen hwf hpend hm]
  exact ⟨s.clearScreen.complete, Controller.afterInit, exec_clearScreen s, (State.complete_ctrl _).trans hctrl, fun _ _ => rfl, rfl,
    rfl, rfl, rfl, rfl, rfl⟩

end Sys2Proof.Machine
end

section
/-! PROOFS. INIT's own script (44_lifecycle.md R190 to R192): what it leaves before its closing clear screen (`State.initPrologue`), and the clear
from there. Each field of the outcome is taken by rewriting with its own lemma: matched by computation, the 1024 write cycles would be run. -/

namespace Sys2Proof.Machine

/-- INIT up to its clear screen: PinSetup, ResetPulse and the bytes of INIT_SCRIPT as commands (R190). -/
def State.initPrologue (s : State) : State := s.pinSetup.resetPulse.busWriteAll .cmd s.cfg.initScript

theorem exec_init (s : State) : exec .init s = .next s.initPrologue.clearScreen.initDone.complete := rfl

@[simp] theorem State.initPrologue_col (s : State) : s.initPrologue.col = s.col := by simp [State.initPrologue]
@[simp] theorem State.initPrologue_line (s : State) : s.initPrologue.line = s.line := by simp [State.initPrologue]
@[simp] theorem State.initPrologue_cfg (s : State) : s.initPrologue.cfg = s.cfg := by simp [State.initPrologue]
@[simp] theorem State.initPrologue_draws (s : State) : s.initPrologue.draws = s.draws := by simp [State.initPrologue]
@[simp] theorem State.initPrologue_pinsSet (s : State) : s.initPrologue.pinsSet = true := by simp [State.initPrologue]
@[simp] theorem State.initPrologue_trace (s : State) :
    s.initPrologue.trace = s.trace ++ [.pinSetup, .resAssert, .delay s.cfg.tResLow, .resRelease, .delay s.cfg.tResRecover] ++
      s.cfg.initScript.map .cmd := by
  simp [State.initPrologue, BusKind.event]

/-- The pulse ends at the idle levels PinSetup established, and the script's write cycles return to them (R29). -/
theorem State.initPrologue_idle (s : State) : s.initPrologue.pins.idle = true := by
  have hpulse : s.pinSetup.resetPulse.pins.idle = true := by
    rw [State.resetPulse_pins _ s.pinSetup_pinsSet, State.pinSetup_pins]
    rfl
  exact State.busWriteAll_idle .cmd s.cfg.initScript (fun _ => hpulse) s.initPrologue_pinsSet

theorem State.initDone_pinsView (s : State) : s.initDone.pinsView = s.pinsView := rfl

/-- From idle pins the clear fixes every pin but DIN, which no write cycle drives (R121, log 12). -/
theorem State.clearScreen_pinsView_of_idle {s : State} (hset : s.pinsSet = true) (hidle : s.pins.idle = true) :
    s.clearScreen.pinsView = some ⟨false, true, false, false, false, 0#8, .output, s.pins.din⟩ := by
  obtain ⟨-, -, hrd, hres, hddir⟩ := Pins.idle_iff.1 hidle
  have hview : s.pinsView = some s.pins := if_pos hset
  rw [State.clearScreen_pinsView, hview, Option.map_some, hrd, hres, hddir]

/-- Settles O54: the prologue leaves the pins idle, the clear closes the script from there, and no part of INIT writes the cursor, RDOUT, the
host's side or the draws. -/
theorem initEmitsTheLifecycleScript : Obligations.InitEmitsTheLifecycleScript := by
  unfold Obligations.InitEmitsTheLifecycleScript
  intro s
  refine ⟨_, exec_init s, ?_, State.complete_status _, State.complete_phase _, ⟨s.initPrologue.pins.din, ?_⟩, ⟨?_, ?_⟩,
    exec_rdout (by decide) (exec_init s), exec_hostSide (exec_init s), ?_⟩
  · rw [State.complete_trace, State.initDone_trace, State.clearScreen_trace, State.initPrologue_trace, State.initPrologue_cfg,
      Config.displayBytes]
  · rw [State.complete_pinsView, State.initDone_pinsView,
      State.clearScreen_pinsView_of_idle s.initPrologue_pinsSet s.initPrologue_idle]
  · rw [State.complete_col, State.initDone_col, State.clearScreen_col, State.initPrologue_col]
  · rw [State.complete_line, State.initDone_line, State.clearScreen_line, State.initPrologue_line]
  · rw [State.complete_draws, State.initDone_draws, State.clearScreen_draws, State.initPrologue_draws]

end Sys2Proof.Machine
end

section
/-! PROOFS. The status of a request (60_exceptions.md R201, R202, R213): it is the answer of the request's own check (`exec_status_eq_check`), so
a status other than OK means that `raise Status` is all that happened. -/

namespace Sys2Proof.Machine

/-! ### The table of codes (R202) -/

/-- The request's own check decides its status: no transaction and no end of a request that passes it raises another. -/
theorem exec_status_eq_check (i : Instr) (s : State) : ∃ t, exec i s = .next t ∧ t.status = s.check i := by
  by_cases hc : s.check i = .ok
  · rw [hc]
    exact exec_status_of_check_ok hc
  · exact ⟨_, exec_of_check_ne_ok hc, State.raiseStatus_status ..⟩

theorem pixelStatus_eq_table (x y : Byte) : (if pixelOK x y then Status.ok else .outOfBounds) =
    if 128 ≤ x.toNat ∨ 64 ≤ y.toNat then .outOfBounds else .ok := by
  rw [← ite_not]
  exact if_congr (by rw [pixelOK_iff]; omega) rfl rfl

theorem lineStatus_eq_table (l : Byte) : (if lineOK l then Status.ok else .outOfBounds) =
    if 8 ≤ l.toNat then .outOfBounds else .ok := by
  rw [← ite_not]
  exact if_congr (by rw [lineOK_iff, Nat.not_lt]) rfl rfl

/-- Settles O10: a request's status is its check's answer, and each check is its row of the table. -/
theorem statusIsTheTableOfCodes : Obligations.StatusIsTheTableOfCodes := by
  unfold Obligations.StatusIsTheTableOfCodes
  refine ⟨⟨rfl, rfl, rfl, rfl⟩, fun i s => ?_⟩
  obtain ⟨t, hexec, hstatus⟩ := exec_status_eq_check i s
  refine ⟨t, hexec, hstatus.trans ?_⟩
  cases i with
  | gotoPixel x y => exact pixelStatus_eq_table x y
  | clearPixel x y => exact pixelStatus_eq_table x y
  | gotoLine l => exact lineStatus_eq_table l
  | blit => exact (ite_not ..).symm
  | _ => rfl

/-! ### `raise Status` (R201) -/

/-- Only a request its own check turns away ends with another status than OK. -/
theorem check_ne_ok_of_exec_status {i : Instr} {s t : State} (h : exec i s = .next t) (hstatus : t.status ≠ .ok) : s.check i ≠ .ok := by
  obtain ⟨t', hexec, hcheck⟩ := exec_status_eq_check i s
  obtain rfl := Host.Outcome.next.inj (hexec.symm.trans h)
  exact hcheck ▸ hstatus

theorem tick_of_decode_error {s : State} {r : HostRequest} {rest : List HostRequest} {e : DecodeError} (hidle : s.phase = .idle)
    (hhost : s.host = r :: rest) (hdec : decode r.word = .error e) : tick s = (s.accept r rest).raiseStatus .illegalRequest := by
  simp only [tick, hidle, hhost, hdec]

/-- Settles O11: such a request was turned away by its check, which at both levels is `raise Status` alone; an illegal word is it too, once the
port has taken the word. -/
theorem raisedStatusChangesNothingElse : Obligations.RaisedStatusChangesNothingElse := by
  unfold Obligations.RaisedStatusChangesNothingElse
  refine ⟨fun i s t hexec hstatus => ?_, fun s r rest e hidle hhost hdec => ?_⟩
  · have hc := check_ne_ok_of_exec_status hexec hstatus
    obtain rfl := Host.Outcome.next.inj ((exec_of_check_ne_ok hc).symm.trans hexec)
    exact ⟨rfl, rfl, State.begin_of_check_ne_ok hc, State.pinSteps_of_check_ne_ok hc⟩
  · exact ⟨_, step_of_decode_error hidle hhost hdec, tick_of_decode_error hidle hhost hdec, rfl, rfl, ⟨rfl, rfl⟩, ⟨rfl, rfl⟩, rfl, rfl,
      rfl, rfl, rfl⟩

/-! ### No request presented (R213) -/

theorem tick_of_idle_nil {s : State} (hidle : s.phase = .idle) (hhost : s.host = []) : tick s = s := by
  simp only [tick, hidle, hhost]

/-- Settles O3: at both levels the block waits at the empty port. -/
theorem stepWaitsWhenNoRequestIsPresented : Obligations.StepWaitsWhenNoRequestIsPresented := by
  unfold Obligations.StepWaitsWhenNoRequestIsPresented
  exact fun _ hidle hhost => ⟨step_of_idle_nil hidle hhost, tick_of_idle_nil hidle hhost⟩

end Sys2Proof.Machine
end

section
/-! PROOFS. Reset and hazards (70_reset_and_hazards.md): a request at the pin level takes its pin steps and is at IDLE (R243), its transactions are
counted (R242), and a byte written is read back after a reposition (R235). -/

namespace Sys2Proof.Machine

/-! ### No request hangs at the pin level (R243) -/

theorem State.phase_of_pinsLeft_eq_zero {s : State} (h : s.pinsLeft = 0) : s.phase = .idle := by
  refine s.ready_eq_one_iff.1 ((BitVec.eq_zero_or_eq_one s.ready).resolve_left fun hzero => ?_)
  exact (s.ready_eq_zero_iff.1 hzero).ne' h

/-- Settles O13: each pin step takes one off the pin steps left, so as many pin steps as are left lead to IDLE. -/
theorem pinStepsAlwaysReachIdle : Obligations.PinStepsAlwaysReachIdle := by
  unfold Obligations.PinStepsAlwaysReachIdle
  exact fun s => ⟨s.pinsLeft, State.phase_of_pinsLeft_eq_zero (by rw [pinsLeft_pinRun, Nat.sub_self])⟩

/-! ### The number of transactions of a request (R242) -/

theorem State.runTxns_trace_length (s : State) (v : Byte) (ts : List Txn) :
    (s.runTxns v ts).1.trace.length = s.trace.length + ts.length := by
  induction ts generalizing s v with
  | nil => rfl
  | cons t ts ih =>
    obtain ⟨e, htrace, -⟩ := s.runTxn_event v t
    rw [State.runTxns, ih, htrace, List.length_append, List.length_singleton, List.length_cons]
    omega

theorem State.transactions_eq_ite (s : State) (i : Instr) : s.transactions i = if s.check i = .ok then (s.txns i).length else 0 := by
  unfold State.transactions
  split
  · next hok => exact (if_pos hok).symm
  · next hne => exact (if_neg hne).symm

/-- A request appends one event to TRACE for each of its transactions, and none where its own check turns it away. -/
theorem exec_trace_length {i : Instr} {s t : State} (h : exec i s = .next t) :
    t.trace.length = s.trace.length + s.transactions i := by
  rw [State.transactions_eq_ite]
  split
  · next hok =>
    obtain rfl := Host.Outcome.next.inj ((exec_of_check_ok 0#8 hok).symm.trans h)
    rw [State.finish_trace, State.runTxns_trace_length]
  · next hne =>
    obtain rfl := Host.Outcome.next.inj ((exec_of_check_ne_ok hne).symm.trans h)
    rfl

theorem check_gotoPixel_eq_ok_iff {s : State} {x y : Byte} : s.check (.gotoPixel x y) = .ok ↔ x.toNat < 128 ∧ y.toNat < 64 :=
  (Ne.ite_eq_left_iff (by decide)).trans pixelOK_iff

theorem check_clearPixel_eq_ok_iff {s : State} {x y : Byte} : s.check (.clearPixel x y) = .ok ↔ x.toNat < 128 ∧ y.toNat < 64 :=
  (Ne.ite_eq_left_iff (by decide)).trans pixelOK_iff

theorem check_gotoLine_eq_ok_iff {s : State} {l : Byte} : s.check (.gotoLine l) = .ok ↔ l.toNat < 8 :=
  (Ne.ite_eq_left_iff (by decide)).trans lineOK_iff

theorem check_blit_eq_ok_iff {s : State} : s.check .blit = .ok ↔ s.bitmapPort.length = Config.displayBytes :=
  Ne.ite_eq_left_iff (by decide)

@[simp] theorem addrSeqTxns_length (cfg : Config) (x p : Byte) : (addrSeqTxns cfg x p).length = 4 := rfl

@[simp] theorem screenTxns_length (cfg : Config) (bs : List Byte) : (screenTxns cfg bs).length = 4 + bs.length := by
  simp [screenTxns]

/-- The wrap branch is an addressing sequence, the render branch five glyph columns and the spacer (R152, R154). -/
theorem State.txns_putChar_length (s : State) (c : Byte) :
    (s.txns (.putChar c)).length = if c = 0x0A#8 ∨ 21 ≤ s.col.toNat then 4 else 6 := by
  by_cases h : c = 0x0A#8 ∨ 21 ≤ s.col.toNat
  · simp [State.txns, wraps_eq_true h, h]
  · obtain ⟨hc, hcol⟩ := not_or.1 h
    simp [State.txns, wraps_eq_false hc (Nat.not_le.1 hcol), State.glyphBytes_length, h]

/-- The clear is the addressing sequence of (0,0) and a byte for each of the display (R173). -/
theorem State.txns_clearScreen_length (s : State) : (s.txns .clearScreen).length = 4 + Config.displayBytes := by
  rw [State.txns, screenTxns_length, List.length_replicate]

/-- INIT's lifecycle events come before its script and the clear (R190). -/
theorem State.txns_init_length (s : State) :
    (s.txns .init).length = 5 + (s.cfg.initScript.length + 4 + Config.displayBytes) := by
  simp only [State.txns, List.length_append, List.length_cons, List.length_nil, List.length_map, screenTxns_length, List.length_replicate]
  omega

/-- Settles O18: the events a request appends are its transactions, whose number is its row of the table. -/
theorem transactionCountsAreTheTable : Obligations.TransactionCountsAreTheTable := by
  unfold Obligations.TransactionCountsAreTheTable
  intro i s t h
  rw [exec_trace_length h, State.transactions_eq_ite]
  congr 1
  cases i with
  | wcmd b => rfl
  | wdata b => rfl
  | rdata => rfl
  | gotoPixel x y => exact if_congr check_gotoPixel_eq_ok_iff rfl rfl
  | gotoLine l => exact if_congr check_gotoLine_eq_ok_iff rfl rfl
  | putChar c => exact s.txns_putChar_length c
  | blit =>
    refine if_ctx_congr check_blit_eq_ok_iff (fun hlen => ?_) fun _ => rfl
    exact (screenTxns_length ..).trans (congrArg (4 + ·) hlen)
  | clearPixel x y => exact if_congr check_clearPixel_eq_ok_iff rfl rfl
  | clearScreen => exact s.txns_clearScreen_length
  | init => exact s.txns_init_length

/-! ### A byte written is read back after a reposition (R235) -/

/-- GOTO_PIXEL in range completes with the pointer at the pixel's byte (R51, R145). -/
theorem exec_gotoPixel_standsAtThePixel {s : State} {c : Controller} {x y : Byte} (hwf : s.cfg.wellFormed = true)
    (hs : s.ctrl = .specified c) (hpend : c.pend = none) (hx : x.toNat < 128) (hy : y.toNat < 64) :
    ∃ t d, exec (.gotoPixel x y) s = .next t ∧ t.cfg = s.cfg ∧ t.ctrl = .specified d ∧
      d.addr = displayAddr (y.toNat / 8) x.toNat ∧ d.mem = c.mem ∧ d.pend = none := by
  obtain ⟨d, hd, hplace⟩ := State.addrSeq_standsAtThePixel hwf hs hpend hx hy
  exact ⟨_, d, exec_gotoPixel_of_inRange s hx hy, s.addrSeq_cfg x (pageOf y), hd, hplace⟩

/-- Settles O53: both repositions take the pointer to the same address, so the read finds the byte the write put there. -/
theorem writeRepositionReadReturnsTheByte : Obligations.WriteRepositionReadReturnsTheByte := by
  unfold Obligations.WriteRepositionReadReturnsTheByte
  intro x y b s c hwf hs hpend hm hx hy
  obtain ⟨t₁, c₁, hgoto, hcfg₁, hs₁, haddr₁, hmem₁, hpend₁⟩ := exec_gotoPixel_standsAtThePixel hwf hs hpend hx hy
  obtain ⟨t₂, c₂, hwrite, hs₂, hbyte, -, -, -, -, hpend₂, -⟩ :=
    dataWriteStoresAtThePointerAndAdvances b t₁ c₁ hs₁ hpend₁ (hmem₁ ▸ hm)
  obtain ⟨hcfg₂, -⟩ := exec_hostSide hwrite
  obtain ⟨t₃, c₃, hback, -, hs₃, haddr₃, hmem₃, hpend₃⟩ :=
    exec_gotoPixel_standsAtThePixel (hcfg₂.trans hcfg₁ ▸ hwf) hs₂ hpend₂ hx hy
  obtain ⟨t₄, -, hread, -, hrdout, -⟩ := readReturnsTheByteAtThePointerAndAdvancesOnce t₃ c₃ hs₃ hpend₃
  have hsame : c₃.mem.read c₃.addr = b := by rw [haddr₃, ← haddr₁, hmem₃]; exact hbyte
  refine ⟨t₄, ?_, hrdout.trans (congrArg some hsame)⟩
  simp only [execAll, hgoto, hwrite, hback, hread]

end Sys2Proof.Machine
end
